-- ==== Sys2Proof/Word.lean ====
section
/-! DEFINITION. The word types of the machine: 00_scope.md R6 (sizes), R8 (types), R10 (Time). -/

namespace Sys2Proof

/-- u8: a register, a memory byte, a timer value. -/
abbrev Byte := BitVec 8

/-- u16: an instruction word, `I`, `pc`, a stack entry. -/
abbrev Word := BitVec 16

/-- u4: a register number (the views X and Y), a row count, a key index. -/
abbrev Nibble := BitVec 4

/-- u12: the view NNN. -/
abbrev Addr12 := BitVec 12

/-- u64: one row of the framebuffer; bit 63 is its leftmost pixel (R34). -/
abbrev Row := BitVec 64

/-- The 80 bytes of GLYPHS (R7), byte k for address k. -/
abbrev Glyphs := Vector Byte 80

/-- Seconds, a rational number (R10). That it is not negative is part of `Safety.Inv`. -/
abbrev Time := Rat

end Sys2Proof
end

