-- ==== Sys2Proof/Syntax.lean ====
section
/-! DEFINITION. The instructions: one constructor per row of the opcode map, 30_encoding.md R94.
Operands are the views of R91: x, y : register numbers; nn : byte; nnn : address; n : row count. -/

namespace Sys2Proof

/-- The 35 instructions of R94, in the order of its table. -/
inductive Instr where
  /-- 0NNN other than 00E0, 00EE: SYS addr (R141). -/
  | sys (nnn : Addr12)
  /-- 00E0: CLS (R190). -/
  | cls
  /-- 00EE: RET (R142). -/
  | ret
  /-- 1NNN: JP addr (R143). -/
  | jp (nnn : Addr12)
  /-- 2NNN: CALL addr (R144). -/
  | call (nnn : Addr12)
  /-- 3XNN: SE Vx, byte (R145). -/
  | seByte (x : Nibble) (nn : Byte)
  /-- 4XNN: SNE Vx, byte (R146). -/
  | sneByte (x : Nibble) (nn : Byte)
  /-- 5XY0: SE Vx, Vy (R147). -/
  | seReg (x y : Nibble)
  /-- 6XNN: LD Vx, byte (R161). -/
  | ldByte (x : Nibble) (nn : Byte)
  /-- 7XNN: ADD Vx, byte (R162). -/
  | addByte (x : Nibble) (nn : Byte)
  /-- 8XY0: LD Vx, Vy (R163). -/
  | ldReg (x y : Nibble)
  /-- 8XY1: OR Vx, Vy (R164). -/
  | orReg (x y : Nibble)
  /-- 8XY2: AND Vx, Vy (R165). -/
  | andReg (x y : Nibble)
  /-- 8XY3: XOR Vx, Vy (R166). -/
  | xorReg (x y : Nibble)
  /-- 8XY4: ADD Vx, Vy (R167). -/
  | addReg (x y : Nibble)
  /-- 8XY5: SUB Vx, Vy (R168). -/
  | sub (x y : Nibble)
  /-- 8XY6: SHR Vx, Vy (R169). -/
  | shr (x y : Nibble)
  /-- 8XY7: SUBN Vx, Vy (R170). -/
  | subn (x y : Nibble)
  /-- 8XYE: SHL Vx, Vy (R171). -/
  | shl (x y : Nibble)
  /-- 9XY0: SNE Vx, Vy (R148). -/
  | sneReg (x y : Nibble)
  /-- ANNN: LD I, addr (R181). -/
  | ldI (nnn : Addr12)
  /-- BNNN: JP V0, addr (R149); its second form reads X and NN out of the same twelve bits. -/
  | jpV0 (nnn : Addr12)
  /-- CXNN: RND Vx, byte (R172). -/
  | rnd (x : Nibble) (nn : Byte)
  /-- DXYN: DRW Vx, Vy, nibble (R191). -/
  | drw (x y : Nibble) (n : Nibble)
  /-- EX9E: SKP Vx (R204). -/
  | skp (x : Nibble)
  /-- EXA1: SKNP Vx (R205). -/
  | sknp (x : Nibble)
  /-- FX07: LD Vx, DT (R201). -/
  | ldVxDt (x : Nibble)
  /-- FX0A: LD Vx, K (R206). -/
  | ldVxK (x : Nibble)
  /-- FX15: LD DT, Vx (R202). -/
  | ldDtVx (x : Nibble)
  /-- FX18: LD ST, Vx (R203). -/
  | ldStVx (x : Nibble)
  /-- FX1E: ADD I, Vx (R182). -/
  | addI (x : Nibble)
  /-- FX29: LD F, Vx (R183). -/
  | ldF (x : Nibble)
  /-- FX33: LD B, Vx (R184). -/
  | ldB (x : Nibble)
  /-- FX55: LD [I], Vx (R185). -/
  | storeRegs (x : Nibble)
  /-- FX65: LD Vx, [I] (R186). -/
  | loadRegs (x : Nibble)
  deriving DecidableEq, Repr

end Sys2Proof
end

