-- ==== Sys2Proof/Machine/Glyphs.lean ====
section
/-! DEFINITION. The value the spec supplies for the parameter GLYPHS: 20_memory.md R62. -/

namespace Sys2Proof

/-- R62: glyphs 0 to 7, five bytes each. UNVERIFIED (log 8): the spec has the bytes from general knowledge. -/
def glyphs0to7 : Vector Byte 40 := #v[0xF0, 0x90, 0x90, 0x90, 0xF0,  0x20, 0x60, 0x20, 0x20, 0x70,
   0xF0, 0x10, 0xF0, 0x80, 0xF0,  0xF0, 0x10, 0xF0, 0x10, 0xF0,
   0x90, 0x90, 0xF0, 0x10, 0x10,  0xF0, 0x80, 0xF0, 0x10, 0xF0,
   0xF0, 0x80, 0xF0, 0x90, 0xF0,  0xF0, 0x10, 0x20, 0x40, 0x40]

/-- R62: glyphs 8 to F. UNVERIFIED (log 8), as above. -/
def glyphs8toF : Vector Byte 40 := #v[0xF0, 0x90, 0xF0, 0x90, 0xF0,  0xF0, 0x90, 0xF0, 0x10, 0xF0,
   0xF0, 0x90, 0xF0, 0x90, 0x90,  0xE0, 0x90, 0xE0, 0x90, 0xE0,
   0xF0, 0x80, 0x80, 0x80, 0xF0,  0xE0, 0x90, 0x90, 0x90, 0xE0,
   0xF0, 0x80, 0xF0, 0x80, 0xF0,  0xF0, 0x80, 0xF0, 0x80, 0x80]

/-- R62: the conventional font, digit 0 first, as the value of GLYPHS. UNVERIFIED (log 8, unsafe). -/
def glyphTable : Glyphs := glyphs0to7 ++ glyphs8toF

end Sys2Proof
end

