-- ==== Sys2Proof/Config.lean ====
section
/-! DEFINITION. What the host configures (00_scope.md R7, 10_state.md R41) and the free values of the model:
the time base and the random source (00_scope.md R10). -/

namespace Sys2Proof

/-- R7, R97: what a word 0NNN other than 00E0 and 00EE does. -/
inductive SysPolicy where
  | fault
  | nop
  deriving DecidableEq, Repr

/-- R7, R41: the configuration record. Instructions read it and never write it. -/
structure Cfg where
  /-- Instructions executed per tick. -/
  ipt : Nat
  /-- Minimum time between two performed draws. -/
  minDrawInterval : Time
  shiftUsesVy : Bool
  indexIncrement : Bool
  spriteWrap : Bool
  jumpVx : Bool
  logicClearsVf : Bool
  keyqueryConsumesRelease : Bool
  sysPolicy : SysPolicy
  /-- GLYPHS: the contents of 0x000 to 0x04F after a load. OPEN (D29, log 8); no operation writes it (log 23). -/
  glyphs : Glyphs
  deriving DecidableEq, Repr

/-- DESIGN CHOICE (log 6, unsafe): the spec leaves the values before the host's first configuration OPEN
(R7, R254, D16). These are the ones the test vectors of 95_test_vectors.md start from, with the value of R62 for GLYPHS
(log 8, unsafe). -/
def Cfg.initial : Cfg where
  ipt := 1
  minDrawInterval := 0
  shiftUsesVy := false
  indexIncrement := false
  spriteWrap := false
  jumpVx := false
  logicClearsVf := false
  keyqueryConsumesRelease := false
  sysPolicy := .fault
  glyphs := glyphTable

/-- Free value (log 3, safe): the n-th advance of the time base is `num / (den + 1)` seconds for the pair
`(num, den)`, which is any rational that is not negative (R10, D1). -/
opaque Config.clockStep : Nat → Nat × Nat

/-- Free value (log 4, safe): the n-th byte of the random source (R10, R128, D3). -/
opaque Config.randomByte : Nat → Byte

end Sys2Proof
end

