-- ==== Sys2Proof/Machine/State.lean ====
section
/-! DEFINITION. The state of the machine as plain data: every row of 10_state.md section 1, and the three fields of the
model's own that carry the inputs of a step (00_scope.md R10). -/

namespace Sys2Proof.Machine

/-- R29: a timer is the value last written and the instant it was written. -/
structure Timer where
  val : Byte
  stamp : Time
  deriving DecidableEq, Repr

/-- R220: the three fault classes, causes 1, 2 and 3. -/
inductive Cause where
  | config
  | decode
  | address
  deriving DecidableEq, Repr

/-- R224: the kind of a fault; only an AddressFault has one. -/
inductive FaultKind where
  | noKind
  | outOfRange
  | glyphWrite
  deriving DecidableEq, Repr

/-- R224: the fault record. -/
structure FaultRecord where
  cause : Cause
  kind : FaultKind
  word : Option Word
  addr : Word
  deriving DecidableEq, Repr

/-- R43, R250: what the machine remembers of the last load for `restart`. -/
structure Program where
  image : List Byte
  origin : Word
  deriving DecidableEq, Repr

/-- `mem` as a list of (address, byte) pairs in one canonical form (`Memory.wf`, log 9). -/
abbrev Memory := List Host.Cell

/-- The state (10_state.md R20 to R41). -/
structure State where
  /-- V[0] to V[15] (R20); V[15] is VF (R21). -/
  v : Vector Byte 16
  /-- The index register I (R22). -/
  i : Word
  /-- The program counter (R23, R24). -/
  pc : Word
  /-- The stack pointer, 8 bits, value 0 to 15 (R25). -/
  sp : Byte
  /-- The ring stack (R26). -/
  stack : Vector Word 16
  /-- The delay timer (R29). -/
  dt : Timer
  /-- The sound timer (R29). -/
  st : Timer
  /-- The memory (R33). -/
  mem : Memory
  /-- The framebuffer, row 0 first (R34). -/
  fb : Vector Row 32
  /-- The key states, true while down (R35). -/
  key : Vector Bool 16
  /-- The last-released slot (R35). -/
  released : Option Nibble
  /-- The time of the last performed draw (R36). -/
  lastDraw : Option Time
  /-- The sound output (R37). -/
  beep : Bool
  /-- Run control (R38). -/
  loaded : Bool
  /-- Run control (R38). -/
  halted : Bool
  /-- The fault record (R39). -/
  fault : Option FaultRecord
  /-- The sound toggle (R40). -/
  soundEnabled : Bool
  /-- The configuration record (R41). -/
  cfg : Cfg
  /-- The image and origin remembered for `restart` (R43, R255). -/
  program : Option Program
  /-- The model's own: the sample of the time base this step uses (R10; log 3). -/
  now : Time
  /-- The model's own: how many samples of the time base were taken (log 3). -/
  samples : Nat
  /-- The model's own: how many random bytes were drawn (log 4). -/
  draws : Nat
  deriving DecidableEq, Repr

/-- Reasons the machine stops with no next state. There is none: the entry of every fault of the spec is described
(60_exceptions.md R225), so a fault is a next state with `fault` set (log 10, safe). Raised by no one. -/
inductive Fault where
  deriving DecidableEq, Repr

/-- Reasons an instruction has no meaning in the model. -/
inductive Refusal where
  /-- Raised by an arm of `exec` for an instruction without a meaning. Safe: the run stops by name. No arm raises
  it: every instruction of the opcode table has its meaning. -/
  | notModelled (mnemonic : String)
  deriving DecidableEq, Repr

/-- The machine right after reset, which is a load (10_state.md R46, 70_reset_and_hazards.md R250): here of an image
of no bytes at the conventional origin 0x200 (log 5). The values are those of R46 (log 7); `cfg` and `soundEnabled`,
which a load keeps and the spec leaves OPEN, are in log 6; memory lists nothing, so it reads as the load leaves it:
GLYPHS (`cfg.glyphs`) and zeros. -/
def State.reset : State where
  v := Vector.replicate 16 0
  i := 0
  pc := 0x200
  sp := 0
  stack := Vector.replicate 16 0
  dt := ⟨0, 0⟩
  st := ⟨0, 0⟩
  mem := []
  fb := Vector.replicate 32 0
  key := Vector.replicate 16 false
  released := none
  lastDraw := none
  beep := false
  loaded := true
  halted := false
  fault := none
  soundEnabled := true
  cfg := Cfg.initial
  program := some ⟨[], 0x200⟩
  now := 0
  samples := 0
  draws := 0

end Sys2Proof.Machine
end

