-- ==== Sys2Proof/Machine/Memory.lean ====
section
/-! DEFINITION. The memory operations: 20_memory.md R60 to R67, R71. Addresses are natural numbers (R63, R180). -/

namespace Sys2Proof.Machine

/-- R60: one past the highest address. -/
def Memory.size : Nat := 4096

/-- R61, R67: one past the last byte of the glyph table. -/
def Memory.glyphEnd : Nat := 0x050

/-- What an unlisted address reads as under the GLYPHS `g`: the contents a load of no bytes leaves, the glyph table and
then zeros (R61, R250 step 2). -/
def Memory.unlisted (g : Glyphs) (a : Nat) : Byte := if h : a < 80 then g[a] else 0

/-- The byte at address `a`; meant for `a` below `Memory.size`, which every caller has checked (R66). -/
def Memory.peek (g : Glyphs) (m : Memory) (a : Nat) : Byte :=
  match m with
  | [] => Memory.unlisted g a
  | (b, v) :: rest => if b = a then v else Memory.peek g rest a

/-- The byte `v` at address `a` put in front of cells of higher addresses, unless it is what `a` reads as anyway. -/
def Memory.cons (g : Glyphs) (a : Nat) (v : Byte) (rest : Memory) : Memory :=
  if v = Memory.unlisted g a then rest else (a, v) :: rest

/-- Sets the byte at `a` to `v` and keeps the canonical form. -/
def Memory.poke (g : Glyphs) (m : Memory) (a : Nat) (v : Byte) : Memory :=
  match m with
  | [] => Memory.cons g a v []
  | (b, u) :: rest =>
    if a < b then Memory.cons g a v ((b, u) :: rest)
    else if a = b then Memory.cons g a v rest
    else (b, u) :: Memory.poke g rest a v

/-- Stores bytes at ascending addresses from `a` (R68). -/
def Memory.store (g : Glyphs) (m : Memory) (a : Nat) : List Byte → Memory
  | [] => m
  | v :: vs => Memory.store g (Memory.poke g m a v) (a + 1) vs

/-- The `n` bytes at ascending addresses from `a` (R68). -/
def Memory.load (g : Glyphs) (m : Memory) (a n : Nat) : List Byte :=
  (List.range n).map fun k => Memory.peek g m (a + k)

/-- The canonical form: addresses strictly rising, inside the address space, and no cell equal to what its address
reads as when unlisted (log 9). -/
abbrev Memory.wf (g : Glyphs) (m : Memory) : Prop :=
  m.Pairwise (fun c d => c.1 < d.1) ∧ ∀ c ∈ m, c.1 < Memory.size ∧ c.2 ≠ Memory.unlisted g c.1

/-- R63: the byte of `mem` at address `a`. -/
def State.byteAt (s : State) (a : Nat) : Byte := Memory.peek s.cfg.glyphs s.mem a

/-- R68: the `n` bytes of `mem` from `a` on. -/
def State.bytesAt (s : State) (a n : Nat) : List Byte := Memory.load s.cfg.glyphs s.mem a n

/-- R65, R68: bytes stored from `a` on, addresses checked by the caller. -/
def State.storeBytes (s : State) (a : Nat) (bytes : List Byte) : State :=
  { s with mem := Memory.store s.cfg.glyphs s.mem a bytes }

/-- R66: whether an address lies outside the address space. -/
def Memory.outside (a : Nat) : Bool := Memory.size ≤ a

/-- R67: whether an address lies in the glyph table, where no instruction may store. -/
def Memory.inGlyphs (a : Nat) : Bool := a < Memory.glyphEnd

/-- R180: the effective addresses of an access of `n` bytes through I, in ascending order. -/
def effectiveAddresses (base n : Nat) : List Nat :=
  (List.range n).map (base + ·)

/-- R71: the lowest of the addresses that is out of range. -/
def firstOutside (base n : Nat) : Option Nat :=
  (effectiveAddresses base n).find? Memory.outside

/-- R71: the lowest of the addresses that is in the glyph table. -/
def firstInGlyphs (base n : Nat) : Option Nat :=
  (effectiveAddresses base n).find? Memory.inGlyphs

end Sys2Proof.Machine
end

