-- ==== Sys2Proof/Machine/Ops.lean ====
section
/-! DEFINITION. The named operations every instruction is built from: registers, the ring stack, timers, the keypad
slot, taking a fault, checked access through I, the fetch, the inputs of a step and the sound re-evaluation. -/

namespace Sys2Proof.Machine

/-- What a meaning answers. -/
abbrev Result := Host.Outcome State Fault Refusal

/-! ## Registers (10_state.md R20 to R24) -/

/-- R20: `V[x]`. -/
def State.readV (s : State) (x : Nibble) : Byte := s.v[x.toNat]'x.isLt

/-- R20: `V[x] <- b`. -/
def State.writeV (s : State) (x : Nibble) (b : Byte) : State :=
  { s with v := s.v.set x.toNat b x.isLt }

/-- R22: `I <- a`. -/
def State.setI (s : State) (a : Word) : State := { s with i := a }

/-- R23, R24: `pc <- a`, sixteen bits, never masked to twelve. -/
def State.setPc (s : State) (a : Word) : State := { s with pc := a }

/-- R125: the ordinary advance, modulo 65536. -/
def State.advance (s : State) : State := s.setPc (s.pc + 2)

/-! ## The ring stack (10_state.md R25 to R28) -/

/-- The ring slot a stack pointer names. It is the pointer itself in every reachable state, where it is at most 15
(R25); DESIGN CHOICE for the others (log 13, safe): modulo 16. -/
def ringSlot (sp : Byte) : Nat := sp.toNat % 16

theorem ringSlot_lt (sp : Byte) : ringSlot sp < 16 := Nat.mod_lt _ (by decide)

/-- R26: the ring slot `k`, taken modulo 16. -/
def State.readSlot (s : State) (k : Nat) : Word := s.stack[k % 16]'(Nat.mod_lt k (by decide))

/-- R27: `stack[sp] <- a; sp <- (sp + 1) mod 16`. -/
def State.push (s : State) (a : Word) : State :=
  { s with
    stack := s.stack.set (ringSlot s.sp) a (ringSlot_lt s.sp)
    sp := (s.sp + 1) % 16 }

/-- R28: `sp <- (sp - 1) mod 16`, the pointer after a pop. -/
def poppedSp (sp : Byte) : Byte := (sp - 1) % 16

/-- R28: the value a pop returns; the slot keeps it. -/
def State.top (s : State) : Word := s.readSlot (poppedSp s.sp).toNat

/-- R28: the state after a pop. -/
def State.pop (s : State) : State := { s with sp := poppedSp s.sp }

/-! ## Timers (10_state.md R29 to R32) -/

/-- R31: the nearest integer, a tie going up. -/
def roundHalfUp (q : Rat) : Int := (q + 1 / 2).floor

/-- R31: what is left of the stored value at `now`, exact, possibly negative. -/
def Timer.remaining (t : Timer) (now : Time) : Rat := (t.val.toNat : Rat) - 60 * (now - t.stamp)

/-- R31: `TimerRead(t, now)`, rounded and clamped to 0 .. 255. -/
def Timer.read (t : Timer) (now : Time) : Byte :=
  BitVec.ofNat 8 (min 255 (max 0 (roundHalfUp (t.remaining now)))).toNat

/-- R30: `TimerWrite(DT, b, now)`. -/
def State.writeDt (s : State) (b : Byte) : State := { s with dt := ⟨b, s.now⟩ }

/-- R30: `TimerWrite(ST, b, now)`. -/
def State.writeSt (s : State) (b : Byte) : State := { s with st := ⟨b, s.now⟩ }

/-! ## Keypad (45_timers_keypad.md R207, R208) -/

/-- R207: the state of key `k`. -/
def State.keyDown (s : State) (k : Nibble) : Bool := s.key[k.toNat]'k.isLt

/-- R208: the last-released slot emptied. -/
def State.clearReleased (s : State) : State := { s with released := none }

/-- R207: what the query of a key leaves; it empties the slot under `CFG.keyquery_consumes_release`. -/
def State.queried (s : State) : State :=
  if s.cfg.keyqueryConsumesRelease then s.clearReleased else s

/-! ## Taking a fault (60_exceptions.md R220 to R228)

There is no return beside it: no instruction returns from a fault, and the ways out are the host's `load`, `restart`
and `unload` (R228; Machine/HostOps.lean). -/

/-- R225: fault entry. The record is latched and nothing else changes. -/
def State.raise (s : State) (r : FaultRecord) : State := { s with fault := some r }

/-- R220, R224: the record of a DecodeFault. -/
def decodeFault (w pc : Word) : FaultRecord := ⟨.decode, .noKind, some w, pc⟩

/-- R220, R224: the record of an AddressFault; `word` is none for a fetch. -/
def addressFault (kind : FaultKind) (word : Option Word) (a : Nat) : FaultRecord :=
  ⟨.address, kind, word, BitVec.ofNat 16 a⟩

/-- A meaning that may raise a fault: the fault is taken from the state before the instruction (R226). -/
def State.orRaise (s : State) : Except FaultRecord State → Result
  | .ok t => .next t
  | .error r => .next (s.raise r)

/-! ## Checked access through I (20_memory.md R66, R67, R71; 43_index_memory.md R180) -/

/-- The `n` bytes at I, for an instruction whose word is `w`, or the fault of the lowest address out of range. -/
def State.loadAtI (s : State) (w : Word) (n : Nat) : Except FaultRecord (List Byte) :=
  match firstOutside s.i.toNat n with
  | some a => .error (addressFault .outOfRange (some w) a)
  | none => .ok (s.bytesAt s.i.toNat n)

/-- The state with bytes stored from I on, for an instruction whose word is `w`, or the fault: range over all bytes
before the glyph table over all bytes, each for the lowest address. -/
def State.storeAtI (s : State) (w : Word) (bytes : List Byte) : Except FaultRecord State :=
  match firstOutside s.i.toNat bytes.length with
  | some a => .error (addressFault .outOfRange (some w) a)
  | none =>
    match firstInGlyphs s.i.toNat bytes.length with
    | some a => .error (addressFault .glyphWrite (some w) a)
    | none => .ok (s.storeBytes s.i.toNat bytes)

/-! ## The cycle (40_execution_cycle.md R120 to R126) -/

/-- R120: whether the machine executes instructions. -/
def State.enabled (s : State) : Bool := s.loaded && !s.halted && s.fault.isNone

/-- R10: one sample of the time base, which never decreases (log 3). -/
def State.sampleClock (s : State) : State :=
  { s with
    now := s.now + ((Config.clockStep s.samples).1 : Rat) / ((Config.clockStep s.samples).2 + 1 : Rat)
    samples := s.samples + 1 }

/-- R64: the lowest offending address of a fetch at `pc` above 0xFFE. -/
def fetchFaultAddress (pc : Word) : Nat := if pc = 0xFFF#16 then 0x1000 else pc.toNat

/-- R64, R123: the big-endian word at `pc`, or the fault of a `pc` above 0xFFE. -/
def State.fetch (s : State) : Except FaultRecord Word :=
  if s.pc.toNat ≤ 0xFFE then
    .ok (wordOfBytes (s.byteAt s.pc.toNat) (s.byteAt (s.pc.toNat + 1)))
  else .error (addressFault .outOfRange none (fetchFaultAddress s.pc))

/-- R126: whether the tone should sound at the end of this instruction. -/
def State.soundOn (s : State) : Bool := s.soundEnabled && s.st.read s.now != 0

/-- R126: the sound re-evaluation. -/
def State.reevaluateSound (s : State) : State := { s with beep := s.soundOn }

/-- R122 step 4, R225: the end of an instruction; one that raised a fault does not re-evaluate the sound. -/
def State.endInstruction (s : State) : State :=
  if s.fault.isNone then s.reevaluateSound else s

/-- The end of an instruction, on what its meaning answered. -/
def endStep : Result → Result
  | .next s => .next s.endInstruction
  | .fault r => .fault r
  | .refused r => .refused r

/-- The address an instruction can be fetched from that the model uses to place one: `pc` where a fetch can succeed,
else the conventional origin (log 19). -/
def State.fetchPlace (s : State) : Word := if s.pc.toNat ≤ 0xFFE then s.pc else 0x200

/-- The word `w` placed where the next fetch reads, big-endian, on a machine enabled to run it. It stands for a load
from outside (log 5, log 19). -/
def State.placeWord (s : State) (w : Word) : State :=
  { s.storeBytes s.fetchPlace.toNat [highByte w, lowByte w] with
    pc := s.fetchPlace
    loaded := true
    halted := false
    fault := none }

end Sys2Proof.Machine
end

