-- ==== Sys2Proof/Machine/Flags.lean ====
section
/-! DEFINITION. The flag register VF, the one condition code (10_state.md R21), and the order of the result and the
flag (42_alu.md R160). -/

namespace Sys2Proof.Machine

/-- R21: register 15. -/
def regF : Nibble := 0xF

/-- A flag value, always 0 or 1 (R21). -/
def flagByte (b : Bool) : Byte := if b then 1 else 0

/-- R167: the unsigned sum exceeds 255. -/
def carries (a b : Byte) : Bool := 255 < a.toNat + b.toNat

/-- R168, R170: subtracting `b` from `a` needs no borrow. -/
def noBorrow (a b : Byte) : Bool := b.toNat ≤ a.toNat

/-- R169: the bit a right shift moves out. -/
def shiftedOutRight (a : Byte) : Bool := a.getLsbD 0

/-- R171: the bit a left shift moves out. -/
def shiftedOutLeft (a : Byte) : Bool := a.getLsbD 7

/-- `VF <- flag`. -/
def State.writeFlag (s : State) (b : Bool) : State := s.writeV regF (flagByte b)

/-- R160: the result to `V[x]`, then the flag to VF, so that with x = 15 the flag remains. -/
def State.writeResultFlag (s : State) (x : Nibble) (r : Byte) (b : Bool) : State :=
  (s.writeV x r).writeFlag b

/-- R164 to R166: `VF <- 0` under `CFG.logic_clears_vf`, else VF as it is. -/
def State.logicFlag (s : State) : State :=
  if s.cfg.logicClearsVf then s.writeV regF 0 else s

end Sys2Proof.Machine
end

