-- ==== Sys2Proof/Machine/Operands.lean ====
section
/-! DEFINITION. The operand forms: zero extension (30_encoding.md R93), the views of BNNN (41_control_flow.md R149), the
shift source (42_alu.md R169), register blocks and the advance of I (43_index_memory.md R185, R186), decimal digits (R184),
key indices (45_timers_keypad.md R209), skips (R125). -/

namespace Sys2Proof.Machine

/-- R93: a 12-bit address in a 16-bit register. -/
def zextAddr (nnn : Addr12) : Word := nnn.setWidth 16

/-- R93: a byte in 16-bit arithmetic. -/
def zextByte (b : Byte) : Word := b.setWidth 16

/-- R91: the view X of the address bits of BNNN. -/
def addrX (nnn : Addr12) : Nibble := nnn.extractLsb' 8 4

/-- R91: the view NN of the address bits of BNNN. -/
def addrNN (nnn : Addr12) : Byte := nnn.extractLsb' 0 8

/-- R149: the target of JP V0, addr in the form `CFG.jump_vx` selects. -/
def State.offsetTarget (s : State) (nnn : Addr12) : Word :=
  if s.cfg.jumpVx then zextByte (addrNN nnn) + zextByte (s.readV (addrX nnn))
  else zextAddr nnn + zextByte (s.readV 0)

/-- R169, R171: the value a shift works on. -/
def State.shiftSource (s : State) (x y : Nibble) : Byte :=
  if s.cfg.shiftUsesVy then s.readV y else s.readV x

/-- R125: `pc + 4` if the condition holds, else `pc + 2`. -/
def State.skipIf (s : State) (c : Bool) : State :=
  s.setPc (if c then s.pc + 4 else s.pc + 2)

/-- R183, R209: the low nibble of a register value, as a digit or a key index. -/
def lowNibble (b : Byte) : Nibble := b.extractLsb' 0 4

/-- R62, R183: where the glyph of a digit starts. -/
def glyphAddress (d : Nibble) : Word := 5 * d.setWidth 16

/-- R184: hundreds, tens and ones, in the order they are stored. -/
def decimalDigits (b : Byte) : List Byte := [b / 100, b / 10 % 10, b % 10]

/-- R185: `V[0]` to `V[x]`, in the order they are stored. -/
def State.regBlock (s : State) (x : Nibble) : List Byte :=
  (List.range (x.toNat + 1)).map fun k => s.readV (BitVec.ofNat 4 k)

/-- R186: `V[k] <- bytes[k]` for every byte of the list; the other registers keep their values. -/
def State.writeRegBlock (s : State) (bytes : List Byte) : State :=
  { s with v := Vector.ofFn fun k => bytes.getD k.val s.v[k] }

/-- R185, R186: `I <- (I + x + 1) mod 65536` under `CFG.index_increment`, else I as it is. -/
def State.advanceI (s : State) (x : Nibble) : State :=
  if s.cfg.indexIncrement then s.setI (s.i + x.setWidth 16 + 1) else s

end Sys2Proof.Machine
end

