-- ==== Sys2Proof/Machine/Alu.lean ====
section
/-! DEFINITION. Register load, arithmetic, logic, shift and random: 42_alu.md R160 to R173. -/

namespace Sys2Proof.Machine

/-- R161: `V[x] <- nn`. -/
def execLdByte (x : Nibble) (nn : Byte) (s : State) : Result := .next (s.writeV x nn).advance

/-- R162: `V[x] <- (V[x] + nn) mod 256`, no flag. -/
def execAddByte (x : Nibble) (nn : Byte) (s : State) : Result :=
  .next (s.writeV x (s.readV x + nn)).advance

/-- R163: `V[x] <- V[y]`. -/
def execLdReg (x y : Nibble) (s : State) : Result := .next (s.writeV x (s.readV y)).advance

/-- R164: OR. -/
def execOrReg (x y : Nibble) (s : State) : Result :=
  .next (s.writeV x (s.readV x ||| s.readV y)).logicFlag.advance

/-- R165: AND. -/
def execAndReg (x y : Nibble) (s : State) : Result :=
  .next (s.writeV x (s.readV x &&& s.readV y)).logicFlag.advance

/-- R166: XOR. -/
def execXorReg (x y : Nibble) (s : State) : Result :=
  .next (s.writeV x (s.readV x ^^^ s.readV y)).logicFlag.advance

/-- R167: the sum modulo 256, VF the carry. -/
def execAddReg (x y : Nibble) (s : State) : Result :=
  .next (s.writeResultFlag x (s.readV x + s.readV y) (carries (s.readV x) (s.readV y))).advance

/-- R168: `V[x] - V[y]` modulo 256, VF the complement of the borrow. -/
def execSub (x y : Nibble) (s : State) : Result :=
  .next (s.writeResultFlag x (s.readV x - s.readV y) (noBorrow (s.readV x) (s.readV y))).advance

/-- R169: right by one, VF the bit shifted out. -/
def execShr (x y : Nibble) (s : State) : Result :=
  .next (s.writeResultFlag x (s.shiftSource x y >>> 1) (shiftedOutRight (s.shiftSource x y))).advance

/-- R170: `V[y] - V[x]` modulo 256, VF the complement of the borrow. -/
def execSubn (x y : Nibble) (s : State) : Result :=
  .next (s.writeResultFlag x (s.readV y - s.readV x) (noBorrow (s.readV y) (s.readV x))).advance

/-- R171: left by one, VF the bit shifted out. -/
def execShl (x y : Nibble) (s : State) : Result :=
  .next (s.writeResultFlag x (s.shiftSource x y <<< 1) (shiftedOutLeft (s.shiftSource x y))).advance

/-- R128: the next byte of the random source is consumed. -/
def State.drawn (s : State) : State := { s with draws := s.draws + 1 }

/-- R172: `V[x] <- rnd & nn`, with `rnd` a free value (log 4). -/
def execRnd (x : Nibble) (nn : Byte) (s : State) : Result :=
  .next (s.drawn.writeV x (Config.randomByte s.draws &&& nn)).advance

end Sys2Proof.Machine
end

