-- ==== Sys2Proof/Machine/ControlFlow.lean ====
section
/-! DEFINITION. Control flow: SYS, RET, JP, CALL, SE, SNE, JP V0 (41_control_flow.md R140 to R149). -/

namespace Sys2Proof.Machine

/-- R141: DecodeFault or no operation, as `CFG.sys_policy` says. -/
def execSys (nnn : Addr12) (s : State) : Result :=
  .next (match s.cfg.sysPolicy with
    | .fault => s.raise (decodeFault (encode (.sys nnn)) s.pc)
    | .nop => s.advance)

/-- R142: `pc <- (Pop() + 2) mod 65536`. -/
def execRet (s : State) : Result := .next (s.pop.setPc (s.top + 2))

/-- R143: `pc <- NNN`. -/
def execJp (nnn : Addr12) (s : State) : Result := .next (s.setPc (zextAddr nnn))

/-- R144: `Push(pc); pc <- NNN`. -/
def execCall (nnn : Addr12) (s : State) : Result := .next ((s.push s.pc).setPc (zextAddr nnn))

/-- R145: skip if `V[x] = nn`. -/
def execSeByte (x : Nibble) (nn : Byte) (s : State) : Result := .next (s.skipIf (s.readV x == nn))

/-- R146: skip if `V[x] != nn`. -/
def execSneByte (x : Nibble) (nn : Byte) (s : State) : Result := .next (s.skipIf (s.readV x != nn))

/-- R147: skip if `V[x] = V[y]`. -/
def execSeReg (x y : Nibble) (s : State) : Result := .next (s.skipIf (s.readV x == s.readV y))

/-- R148: skip if `V[x] != V[y]`. -/
def execSneReg (x y : Nibble) (s : State) : Result := .next (s.skipIf (s.readV x != s.readV y))

/-- R149: jump with offset. -/
def execJpV0 (nnn : Addr12) (s : State) : Result := .next (s.setPc (s.offsetTarget nnn))

end Sys2Proof.Machine
end

