-- ==== Sys2Proof/Machine/Display.lean ====
section
/-! DEFINITION. Display: CLS and DRW (44_display.md R190 to R197). -/

namespace Sys2Proof.Machine

/-- A framebuffer: 32 rows, row 0 first (10_state.md R34). -/
abbrev Screen := Vector Row 32

/-- R190: all rows 0. -/
def Screen.clear : Screen := Vector.replicate 32 0

/-- R194: the eight pixels of `b` placed in a row with the leftmost at column `x0`. -/
def rowMask (wrap : Bool) (b : Byte) (x0 : Nat) : Row :=
  let base : Row := b.setWidth 64 <<< 56
  if wrap then base.rotateRight x0 else base >>> x0

/-- R195: the framebuffer row for the row number `y0 + k`; none where a clipped draw stops. -/
def targetRow (wrap : Bool) (r : Nat) : Option (Fin 32) :=
  if r ≤ 31 || wrap then some (Fin.ofNat 32 r) else none

/-- R195, R196: draws the sprite rows from row number `r` on; answers the framebuffer and whether a pixel went from
1 to 0 (or `hit` held before). In clip mode it stops at the first row below the screen. -/
def drawRows (wrap : Bool) (x0 : Nat) : List Byte → Nat → Screen → Bool → Screen × Bool
  | [], _, fb, hit => (fb, hit)
  | b :: bs, r, fb, hit =>
    match targetRow wrap r with
    | none => (fb, hit)
    | some k =>
      let m := rowMask wrap b x0
      drawRows wrap x0 bs (r + 1) (fb.set k (fb[k] ^^^ m)) (hit || fb[k] &&& m != 0)

/-- R192: whether a draw now is skipped: less than the minimum interval has passed since the last performed one. -/
def State.drawLimited (s : State) : Bool :=
  match s.lastDraw with
  | none => false
  | some t => decide (s.now - t < s.cfg.minDrawInterval)

/-- R193: the column of the origin. -/
def State.originX (s : State) (x : Nibble) : Nat := (s.readV x).toNat % 64

/-- R193: the row of the origin. -/
def State.originY (s : State) (y : Nibble) : Nat := (s.readV y).toNat % 32

/-- R191: the draw of the sprite rows `rows`, performed: framebuffer, VF and `last_draw`. -/
def State.drawSprite (s : State) (x y : Nibble) (rows : List Byte) : State :=
  let d := drawRows s.cfg.spriteWrap (s.originX x) rows (s.originY y) s.fb false
  ({ s with fb := d.1, lastDraw := some s.now } : State).writeFlag d.2

/-- R190: CLS. -/
def execCls (s : State) : Result := .next ({ s with fb := Screen.clear } : State).advance

/-- R191: DRW. A rate-limited draw only advances pc (R192). -/
def execDrw (x y n : Nibble) (s : State) : Result :=
  if s.drawLimited then .next s.advance
  else s.orRaise ((s.loadAtI (encode (.drw x y n)) n.toNat).map fun rows => (s.drawSprite x y rows).advance)

end Sys2Proof.Machine
end

