-- ==== Sys2Proof/Machine/IndexMemory.lean ====
section
/-! DEFINITION. Index register and memory: 43_index_memory.md R180 to R186. -/

namespace Sys2Proof.Machine

/-- R181: `I <- NNN`. -/
def execLdI (nnn : Addr12) (s : State) : Result := .next (s.setI (zextAddr nnn)).advance

/-- R182: `I <- (I + V[x]) mod 65536`, no flag, no fault. -/
def execAddI (x : Nibble) (s : State) : Result :=
  .next (s.setI (s.i + zextByte (s.readV x))).advance

/-- R183: I to the glyph of the low nibble of `V[x]`. -/
def execLdF (x : Nibble) (s : State) : Result :=
  .next (s.setI (glyphAddress (lowNibble (s.readV x)))).advance

/-- R184: the decimal digits of `V[x]` to memory at I. -/
def execLdB (x : Nibble) (s : State) : Result :=
  s.orRaise ((s.storeAtI (encode (.ldB x)) (decimalDigits (s.readV x))).map fun t => t.advance)

/-- R185: block store of `V[0]` to `V[x]`. -/
def execStoreRegs (x : Nibble) (s : State) : Result :=
  s.orRaise ((s.storeAtI (encode (.storeRegs x)) (s.regBlock x)).map fun t => (t.advanceI x).advance)

/-- R186: block load of `V[0]` to `V[x]`. -/
def execLoadRegs (x : Nibble) (s : State) : Result :=
  s.orRaise ((s.loadAtI (encode (.loadRegs x)) (x.toNat + 1)).map fun bytes =>
    ((s.writeRegBlock bytes).advanceI x).advance)

end Sys2Proof.Machine
end

