-- ==== Sys2Proof/Machine/TimersKeypad.lean ====
section
/-! DEFINITION. Timers and keypad: 45_timers_keypad.md R200 to R209. -/

namespace Sys2Proof.Machine

/-- R201: `V[x] <- TimerRead(DT, now)`. -/
def execLdVxDt (x : Nibble) (s : State) : Result := .next (s.writeV x (s.dt.read s.now)).advance

/-- R202: `TimerWrite(DT, V[x], now)`. -/
def execLdDtVx (x : Nibble) (s : State) : Result := .next (s.writeDt (s.readV x)).advance

/-- R203: `TimerWrite(ST, V[x], now)`. -/
def execLdStVx (x : Nibble) (s : State) : Result := .next (s.writeSt (s.readV x)).advance

/-- R204: skip if the key is down. -/
def execSkp (x : Nibble) (s : State) : Result :=
  .next (s.queried.skipIf (s.keyDown (lowNibble (s.readV x))))

/-- R205: skip if the key is up. -/
def execSknp (x : Nibble) (s : State) : Result :=
  .next (s.queried.skipIf (!s.keyDown (lowNibble (s.readV x))))

/-- R206: the released key to `V[x]`, or the same instruction again. -/
def execLdVxK (x : Nibble) (s : State) : Result :=
  .next (match s.released with
    | some k => (s.clearReleased.writeV x (k.setWidth 8)).advance
    | none => s)

end Sys2Proof.Machine
end

