-- ==== Sys2Proof/Machine/Cycle.lean ====
section
/-! DEFINITION. One instruction step: 40_execution_cycle.md R122 to R126. -/

namespace Sys2Proof.Machine

/-- R122: `execute_one` on an enabled machine whose `now` is the sample of this step. A word that is no instruction
raises DecodeFault (R222); a fault changes nothing but `fault` and ends the step (R225). -/
def executeOne (s : State) : Result :=
  match s.fetch with
  | .error r => .next (s.raise r)
  | .ok w =>
    match decodeWord w with
    | .error _ => .next (s.raise (decodeFault w s.pc))
    | .ok i => endStep (exec i s)

/-- R120, R121: the step of the machine is `execute_one`; a disabled machine changes no state (log 1, log 2). -/
def stepMachine (s : State) : Result :=
  if s.enabled then executeOne s.sampleClock else .next s

end Sys2Proof.Machine
end

