-- ==== Sys2Proof/Machine/Step.lean ====
section
/-! DEFINITION. The step of the machine and the placing of a word where it fetches next. -/

namespace Sys2Proof.Machine

/-- One step: `execute_one` (R122) on an enabled machine, nothing on a disabled one (R120). -/
def step (s : State) : Host.Outcome State Fault Refusal := stepMachine s

/-- `s` with the instruction whose bits are `w` (numbered as spec/opcode_table.json numbers them) where the next
step fetches, on a machine enabled to run it (log 5, log 19). -/
def State.withFetchWord (s : State) (nbits w : Nat) : State :=
  s.placeWord (BitVec.ofNat 16 (w % 2 ^ nbits))

end Sys2Proof.Machine
end

