-- ==== Sys2Proof/Machine/HostOps.lean ====
section
/-! DEFINITION. What the host does to the machine between ticks (60_exceptions.md R233 to R246) and reset, which is the
host operation `load` (70_reset_and_hazards.md R250 to R256). The tick itself is in Machine/Tick.lean. -/

namespace Sys2Proof.Machine

/-- R239: the six Boolean options. -/
inductive Quirk where
  | shiftUsesVy
  | indexIncrement
  | spriteWrap
  | jumpVx
  | logicClearsVf
  | keyqueryConsumesRelease
  deriving DecidableEq, Repr

/-- R233: the operations of the host. The argument types are the ports': a key index has 4 bits (R235), an interval is
not negative (R238). -/
inductive HostOp where
  | load (image : List Byte) (origin : Word)
  | unload
  | restart
  | tick
  | halt
  | resume
  | toggleHalt
  | setIpt (n : Nat)
  | setMinDrawInterval (t : NNRat)
  | setQuirk (q : Quirk) (b : Bool)
  | setSysPolicy (p : SysPolicy)
  | setKey (k : Nibble) (down : Bool)
  | setSoundEnabled (b : Bool)
  deriving DecidableEq

/-- R256: the unloaded state, every piece of state at its reset value (R46) and memory zero but for GLYPHS
(`cfg.glyphs`, which `mem` reads as where it lists nothing).
Configuration, `sound_enabled` (R254) and what is remembered for `restart` stay; DESIGN CHOICE (log 17, unsafe): `pc`
is 0, since there is no origin. -/
def State.unloaded (s : State) : State :=
  { State.reset with
    pc := 0
    dt := ⟨0, s.now⟩
    st := ⟨0, s.now⟩
    loaded := false
    soundEnabled := s.soundEnabled
    cfg := s.cfg
    program := s.program
    now := s.now
    samples := s.samples
    draws := s.draws }

/-- R256: the state at power-on, before any load; `sound` and `cfg` are OPEN (R254, D16). -/
def State.powerOn (sound : Bool) (cfg : Cfg) : State :=
  { State.reset with pc := 0, loaded := false, soundEnabled := sound, cfg := cfg, program := none }

/-- R251: the image does not fit. -/
def overflows (image : List Byte) (origin : Word) : Bool :=
  Memory.size < origin.toNat + image.length

/-- R250: `load(image, origin)` at the time the clock is sampled for it (log 18). An image that does not fit leaves the
unloaded state with a ConfigFault (R251). -/
def State.load (s : State) (image : List Byte) (origin : Word) : State :=
  let t := s.sampleClock.unloaded
  if overflows image origin then
    t.raise ⟨.config, .noKind, none, origin⟩
  else
    { t.storeBytes origin.toNat image with
      pc := origin
      loaded := true
      program := some ⟨image, origin⟩ }

/-- R255: the unloaded state, no fault. -/
def State.unload (s : State) : State := s.sampleClock.unloaded

/-- R255: the load of the remembered image; nothing on a machine that was never loaded. -/
def State.restart (s : State) : State :=
  match s.program with
  | some p => s.load p.image p.origin
  | none => s

/-- R236. -/
def State.setHalted (s : State) (b : Bool) : State := { s with halted := b }

/-- R238. -/
def State.setIpt (s : State) (n : Nat) : State := { s with cfg := { s.cfg with ipt := n } }

/-- R238. -/
def State.setMinDrawInterval (s : State) (t : NNRat) : State :=
  { s with cfg := { s.cfg with minDrawInterval := t } }

/-- R239: one Boolean field of the record. -/
def setQuirkIn (c : Cfg) (b : Bool) : Quirk → Cfg
  | .shiftUsesVy => { c with shiftUsesVy := b }
  | .indexIncrement => { c with indexIncrement := b }
  | .spriteWrap => { c with spriteWrap := b }
  | .jumpVx => { c with jumpVx := b }
  | .logicClearsVf => { c with logicClearsVf := b }
  | .keyqueryConsumesRelease => { c with keyqueryConsumesRelease := b }

/-- R239. -/
def State.setQuirk (s : State) (q : Quirk) (b : Bool) : State :=
  { s with cfg := setQuirkIn s.cfg b q }

/-- R239: `sys_policy` is set the same way. -/
def State.setSysPolicy (s : State) (p : SysPolicy) : State :=
  { s with cfg := { s.cfg with sysPolicy := p } }

/-- R235: a key goes down or up; going up from down records the release. No effect on a machine that is not loaded. -/
def State.setKey (s : State) (k : Nibble) (down : Bool) : State :=
  if s.loaded then
    { s with
      released := if s.keyDown k && !down then some k else s.released
      key := s.key.set k.toNat down k.isLt }
  else s

/-- R241: disabling forces `beep` to false at once; enabling leaves it for the next re-evaluation. -/
def State.setSoundEnabled (s : State) (b : Bool) : State :=
  { s with soundEnabled := b, beep := s.beep && b }

/-! Outputs and debug reads: `halted`, `loaded`, `beep`, `fault` and the framebuffer are fields of State (R237, R240,
R242), and so are the registers and the stack. -/

/-- R243: a byte of memory, for an address inside the address space. -/
def State.debugMem (s : State) (a : Nat) : Option Byte :=
  if Memory.outside a then none else some (s.byteAt a)

/-- R244: the delay timer's flag at `now`, a pure observation. -/
def State.dtActive (s : State) (now : Time) : Bool := s.dt.read now != 0

/-- R244: the sound timer's flag at `now`, a pure observation. -/
def State.stActive (s : State) (now : Time) : Bool := s.st.read now != 0

end Sys2Proof.Machine
end

