-- ==== Sys2Proof/Machine/Tick.lean ====
section
/-! DEFINITION. The tick (40_execution_cycle.md R121) and the host's operations as one function (60_exceptions.md R233). -/

namespace Sys2Proof.Machine

/-- `n` steps in sequence. A step that raised a fault leaves a disabled machine, on which the rest change nothing, so
the tick stops early as R121 says. -/
def runSteps : Nat → State → Result
  | 0, s => .next s
  | n + 1, s =>
    match step s with
    | .next t => runSteps n t
    | .fault r => .fault r
    | .refused r => .refused r

/-- R121: `CFG.ipt` instructions on an enabled machine; no change on a disabled one (R120). -/
def State.tick (s : State) : Result :=
  if s.enabled then runSteps s.cfg.ipt s else .next s

/-- R233: what an operation of the host does. -/
def State.act (s : State) : HostOp → Result
  | .load image origin => .next (s.load image origin)
  | .unload => .next s.unload
  | .restart => .next s.restart
  | .tick => s.tick
  | .halt => .next (s.setHalted true)
  | .resume => .next (s.setHalted false)
  | .toggleHalt => .next (s.setHalted (!s.halted))
  | .setIpt n => .next (s.setIpt n)
  | .setMinDrawInterval t => .next (s.setMinDrawInterval t)
  | .setQuirk q b => .next (s.setQuirk q b)
  | .setSysPolicy p => .next (s.setSysPolicy p)
  | .setKey k down => .next (s.setKey k down)
  | .setSoundEnabled b => .next (s.setSoundEnabled b)

end Sys2Proof.Machine
end

