-- ==== Sys2Proof/Safety.lean ====
section
/-! DEFINITION. The terms claims are stated in: the invariant of 10_state.md R45, reachable states,
what a frame says stays the same, and what results, flags, faults and reset leave. -/

namespace Sys2Proof.Safety

open Sys2Proof.Machine

/-- R220, R224: the rows of the fault table a record can come from. -/
def legalFault (r : FaultRecord) : Prop :=
  (r.cause = .config ∧ r.kind = .noKind ∧ r.word = none) ∨
  (r.cause = .decode ∧ r.kind = .noKind ∧ r.word ≠ none) ∨
  (r.cause = .address ∧ r.kind = .outOfRange ∧ 0x1000 ≤ r.addr.toNat) ∨
  (r.cause = .address ∧ r.kind = .glyphWrite ∧ r.word ≠ none ∧ r.addr.toNat ≤ 0x04F)

/-- R45, with what the types of R7 and R10 say of times: what holds in every reachable state. -/
structure Inv (s : State) : Prop where
  /-- Memory is in its canonical form (log 9). -/
  memory : Memory.wf s.cfg.glyphs s.mem
  /-- R25: the stack pointer is at most 15. -/
  pointer : s.sp.toNat ≤ 15
  /-- R45: every stack entry is an address an instruction can be fetched from. -/
  entries : ∀ k : Fin 16, s.stack[k].toNat ≤ 0xFFE
  /-- R10, R45: the stamp of the delay timer is not negative and not after `now`. -/
  delayStamp : 0 ≤ s.dt.stamp ∧ s.dt.stamp ≤ s.now
  /-- R10, R45: the stamp of the sound timer is not negative and not after `now`. -/
  soundStamp : 0 ≤ s.st.stamp ∧ s.st.stamp ≤ s.now
  /-- R10, R45: the last performed draw is not before time 0 and not after `now`. -/
  drawStamp : ∀ t, s.lastDraw = some t → 0 ≤ t ∧ t ≤ s.now
  /-- R7: the minimum draw interval is not negative. -/
  interval : 0 ≤ s.cfg.minDrawInterval
  /-- R224: a recorded fault is of a row of the fault table. -/
  record : ∀ r, s.fault = some r → legalFault r
  /-- R126, R241: the tone sounds only while sound is enabled. -/
  sound : s.beep = true → s.soundEnabled = true
  /-- R251: the image remembered for `restart` fits. -/
  remembered : ∀ p, s.program = some p → p.origin.toNat + p.image.length ≤ Memory.size

/-- What the machine can come to: from power-on under any configuration, or from reset, by steps and operations of the
host in any order (R234; log 12, log 20). -/
inductive Reachable : State → Prop where
  | powerOn (sound : Bool) (cfg : Cfg) (h : 0 ≤ cfg.minDrawInterval) : Reachable (State.powerOn sound cfg)
  | reset : Reachable State.reset
  | step (s t : State) (hs : Reachable s) (h : step s = .next t) : Reachable t
  | act (s t : State) (op : HostOp) (hs : Reachable s) (h : s.act op = .next t) : Reachable t

/-! What stays the same between two states. -/

/-- Every register but those that satisfy `P`. -/
def RegsSameBut (P : Nibble → Prop) (s t : State) : Prop :=
  ∀ r, ¬ P r → t.readV r = s.readV r

/-- Every byte of memory, read one at a time. -/
def MemSame (s t : State) : Prop :=
  ∀ a, t.byteAt a = s.byteAt a

/-- Every byte of memory but the `n` bytes from address `base` on. -/
def MemSameBut (base n : Nat) (s t : State) : Prop :=
  ∀ a, (a < base ∨ base + n ≤ a) → t.byteAt a = s.byteAt a

/-- The index register. -/
def IndexSame (s t : State) : Prop := t.i = s.i

/-- The stack pointer and every ring slot. -/
def StackSame (s t : State) : Prop := t.sp = s.sp ∧ ∀ k, t.readSlot k = s.readSlot k

/-- Both timers. -/
def TimersSame (s t : State) : Prop := t.dt = s.dt ∧ t.st = s.st

/-- The framebuffer and the time of the last draw. -/
def ScreenSame (s t : State) : Prop := t.fb = s.fb ∧ t.lastDraw = s.lastDraw

/-- The key states and the last-released slot. -/
def KeypadSame (s t : State) : Prop := t.key = s.key ∧ t.released = s.released

/-- Run control, fault record, sound output and toggle, configuration and the remembered program. -/
def ControlSame (s t : State) : Prop :=
  t.loaded = s.loaded ∧ t.halted = s.halted ∧ t.fault = s.fault ∧ t.beep = s.beep ∧
  t.soundEnabled = s.soundEnabled ∧ t.cfg = s.cfg ∧ t.program = s.program

/-- The model's own fields for the inputs of a step. -/
def InputsSame (s t : State) : Prop := t.now = s.now ∧ t.samples = s.samples ∧ t.draws = s.draws

/-- Everything outside the general registers, I, pc, the stack, memory, the timers, the screen and the keypad. -/
def RestSame (s t : State) : Prop := ControlSame s t ∧ InputsSame s t

/-- The frame of an instruction on registers alone: all but the registers in `P`, and pc, stays. -/
def RegisterFrame (P : Nibble → Prop) (s t : State) : Prop :=
  RegsSameBut P s t ∧ IndexSame s t ∧ StackSame s t ∧ MemSame s t ∧ TimersSame s t ∧ ScreenSame s t ∧
  KeypadSame s t ∧ RestSame s t

/-- The frame of an instruction that writes memory from I on, `n` bytes: no register changes. -/
def StoreFrame (n : Nat) (s t : State) : Prop :=
  RegsSameBut (fun _ => False) s t ∧ MemSameBut s.i.toNat n s t ∧ StackSame s t ∧ TimersSame s t ∧
  ScreenSame s t ∧ KeypadSame s t ∧ RestSame s t

/-! The picture, pixel by pixel (10_state.md R34, 44_display.md R194, R195). -/

/-- R34: the pixel at row `r`, column `c`; column 0 is bit 63. -/
def pixel (fb : Vector Row 32) (r : Fin 32) (c : Fin 64) : Bool := fb[r].getLsbD (63 - c.val)

/-- R194, R195: the sprite of `n` rows at I, drawn with its origin at column `x0` and row `y0`, has a set bit that lands on
row `r`, column `c`. Sprite row k goes to row y0 + k, bit 7 - j to column x0 + j; in wrap mode both are taken modulo the
size of the screen, in clip mode what falls outside the screen lands nowhere. -/
def Covers (s : State) (n x0 y0 : Nat) (r : Fin 32) (c : Fin 64) : Prop :=
  ∃ k j : Nat, k < n ∧ j < 8 ∧ (s.byteAt (s.i.toNat + k)).getLsbD (7 - j) = true ∧
    (if s.cfg.spriteWrap then r.val = (y0 + k) % 32 ∧ c.val = (x0 + j) % 64
     else r.val = y0 + k ∧ c.val = x0 + j)

/-! The program counter after an instruction that raised no fault: the table of 40_execution_cycle.md R125. -/

/-- `pc + 4` if the condition holds, else `pc + 2`. -/
def pcSkip (s : State) (c : Prop) [Decidable c] : Word := if c then s.pc + 4 else s.pc + 2

/-- The key a SKP or SKNP on register `x` asks for: the low nibble of its value (R209). -/
def queriedKey (s : State) (x : Nibble) : Nibble := BitVec.ofNat 4 ((s.readV x).toNat % 16)

/-- R125, row by row. -/
def pcAfter (i : Instr) (s : State) : Word :=
  match i with
  | .jp nnn | .call nnn => BitVec.ofNat 16 nnn.toNat
  | .ret => BitVec.ofNat 16 ((s.readSlot ((s.sp.toNat + 15) % 16)).toNat + 2)
  | .jpV0 nnn =>
    if s.cfg.jumpVx then
      BitVec.ofNat 16 (nnn.toNat % 256 + (s.readV (BitVec.ofNat 4 (nnn.toNat / 256))).toNat)
    else BitVec.ofNat 16 (nnn.toNat + (s.readV 0).toNat)
  | .seByte x nn => pcSkip s (s.readV x = nn)
  | .sneByte x nn => pcSkip s (s.readV x ≠ nn)
  | .seReg x y => pcSkip s (s.readV x = s.readV y)
  | .sneReg x y => pcSkip s (s.readV x ≠ s.readV y)
  | .skp x => pcSkip s (s.keyDown (queriedKey s x) = true)
  | .sknp x => pcSkip s (s.keyDown (queriedKey s x) = false)
  | .ldVxK _ => if s.released = none then s.pc else s.pc + 2
  | .sys _ | .cls | .drw _ _ _ => s.pc + 2
  | .ldByte _ _ | .addByte _ _ | .ldReg _ _ | .rnd _ _ => s.pc + 2
  | .orReg _ _ | .andReg _ _ | .xorReg _ _ | .addReg _ _ => s.pc + 2
  | .sub _ _ | .shr _ _ | .subn _ _ | .shl _ _ => s.pc + 2
  | .ldI _ | .addI _ | .ldF _ | .ldB _ | .storeRegs _ | .loadRegs _ => s.pc + 2
  | .ldVxDt _ | .ldDtVx _ | .ldStVx _ => s.pc + 2

/-! What a result, a flag, a fault and a reset leave. -/

/-- What R164 to R166 say of a logic operation with result `r`; the order of result and VF is that of R160 (D17). -/
def LogicResult (x : Nibble) (r : Byte) (s t : State) : Prop :=
  (s.cfg.logicClearsVf = true → t.readV regF = 0 ∧ (x ≠ regF → t.readV x = r)) ∧
  (s.cfg.logicClearsVf = false → t.readV x = r) ∧
  t.pc = s.pc + 2 ∧ RegisterFrame (fun v => v = x ∨ (v = regF ∧ s.cfg.logicClearsVf = true)) s t

/-- A result and a flag written in the order of R160 (D17): with x = 15 the flag remains. -/
def ResultAndFlag (x : Nibble) (r : Nat) (flag : Prop) (s t : State) : Prop :=
  (x ≠ regF → (t.readV x).toNat = r) ∧ (flag → t.readV regF = 1) ∧ (¬ flag → t.readV regF = 0) ∧
  t.pc = s.pc + 2 ∧ RegisterFrame (fun v => v = x ∨ v = regF) s t

/-- The reset values of R46 (decisions D9, D15, D22, D23 of the spec): what a load leaves in every piece of state but memory
and pc. `now` is the time of the load. -/
def FreshState (t : State) : Prop :=
  (∀ r, t.readV r = 0) ∧ t.i = 0 ∧ t.sp = 0 ∧ (∀ k, t.readSlot k = 0) ∧
  t.dt = ⟨0, t.now⟩ ∧ t.st = ⟨0, t.now⟩ ∧ (∀ r c, pixel t.fb r c = false) ∧ (∀ k, t.keyDown k = false) ∧
  t.released = none ∧ t.lastDraw = none ∧ t.beep = false ∧ t.halted = false

/-- R224, R225: `s` with the AddressFault of kind `k` that the instruction `i` raises at address `a`, nothing else changed. -/
def withAddressFault (s : State) (k : FaultKind) (i : Instr) (a : Nat) : State :=
  { s with fault := some ⟨.address, k, some (encode i), BitVec.ofNat 16 a⟩ }

end Sys2Proof.Safety
end

