-- ==== Sys2Proof/Certificates/Slice0/Obligations.lean ====
section
/-! DEFINITION. The statements for the provers. Each docstring names the rule of spec/ it comes from; a decision of the
spec (92_eei_decisions.md D<n>) or a log entry a statement rests on is named there too. -/

open Sys2Proof Sys2Proof.Machine Sys2Proof.Safety

/-! ## Encoding and decoding -/

/-- 30_encoding.md R91, R94: words written out from the patterns decode to the instructions they stand for, and a near
miss of 5XY0 (R96) is refused by name. -/
def Obligations.SpecWordsDecode : Prop :=
  decodeWord 0b0110_0000_00010010#16 = .ok (.ldByte 0 0x12) ∧
  decodeWord 0b1000_0000_0001_0100#16 = .ok (.addReg 0 1) ∧
  decodeWord 0b0000_0000_1110_1110#16 = .ok .ret ∧
  decodeWord 0b1010_001011110000#16 = .ok (.ldI 0x2F0) ∧
  decodeWord 0b1101_0001_0010_0101#16 = .ok (.drw 1 2 5) ∧
  decodeWord 0b1110_0101_10011110#16 = .ok (.skp 5) ∧
  decodeWord 0b1111_0011_00110011#16 = .ok (.ldB 3) ∧
  decodeWord 0b0101_0001_0010_0001#16 = .error .illegalFive

/-- Decoding the word of a well-formed instruction gives it back, every operand at every value (R90 to R95). -/
def Obligations.DecodeInvertsEncode : Prop :=
  ∀ i : Instr, i.wellFormed = true → decodeWord (encode i) = .ok i

/-- A word that decodes is the word of the well-formed instruction it decodes to: no bit is ignored (R98). -/
def Obligations.EncodeInvertsDecode : Prop :=
  ∀ (w : Word) (i : Instr), decodeWord w = .ok i → i.wellFormed = true ∧ encode i = w

/-- R96 (derived there from R94, with D12): the illegal words are exactly those of its table. -/
def Obligations.IllegalWordsExactly : Prop :=
  ∀ w : Word, (∃ e, decodeWord w = .error e) ↔
    (w.toNat / 4096 = 0x5 ∧ w.toNat % 16 ≠ 0) ∨
    (w.toNat / 4096 = 0x8 ∧ w.toNat % 16 ∈ [0x8, 0x9, 0xA, 0xB, 0xC, 0xD, 0xF]) ∨
    (w.toNat / 4096 = 0x9 ∧ w.toNat % 16 ≠ 0) ∨
    (w.toNat / 4096 = 0xE ∧ w.toNat % 256 ∉ [0x9E, 0xA1]) ∨
    (w.toNat / 4096 = 0xF ∧
      w.toNat % 256 ∉ [0x07, 0x0A, 0x15, 0x18, 0x1E, 0x29, 0x33, 0x55, 0x65])

/-- R94, R95: a word decodes to an instruction of the row whose match equals the word under the row's mask, CLS and RET
winning over SYS. -/
def Obligations.DecoderFollowsTheRows : Prop :=
  ∀ (w : Word) (i : Instr), decodeWord w = .ok i →
    w &&& (opcodeRow i).1 = (opcodeRow i).2 ∧
    (w = 0x00E0#16 → i = .cls) ∧ (w = 0x00EE#16 → i = .ret)

/-! ## The cycle -/

/-- R122: on an enabled machine whose two bytes at `pc` decode to an instruction, the step takes one sample of the clock,
performs the rule of the instruction, and, unless that raised a fault, re-evaluates the sound. -/
def Obligations.StepRunsTheDecodedInstruction : Prop :=
  ∀ (s : State) (i : Instr), s.enabled = true → s.pc.toNat ≤ 0xFFE →
    decodeWord (wordOfBytes (s.byteAt s.pc.toNat) (s.byteAt (s.pc.toNat + 1))) = .ok i →
    ∀ t, exec i s.sampleClock = .next t →
      (t.fault ≠ none → step s = .next t) ∧
      (t.fault = none → step s = .next { t with beep := t.soundEnabled && t.st.read t.now != 0 })

/-- R120 (D9), R227: a tick of a machine that is unloaded, halted or faulted changes no state. The clause on `step` is the
model's choice (log 2): R120 speaks of a tick, and R122 performs `execute_one` on an enabled machine only. -/
def Obligations.DisabledMachineStaysStill : Prop :=
  ∀ s : State, (s.loaded = false ∨ s.halted = true ∨ s.fault ≠ none) →
    step s = .next s ∧ s.tick = .next s

/-- R123 with the address of R64 (D6): a fetch from above 0xFFE raises AddressFault, which changes nothing but `fault`
(and the clock sample, log 11). -/
def Obligations.FetchBeyondMemoryFaults : Prop :=
  ∀ s : State, s.enabled = true → 0xFFE < s.pc.toNat →
    step s = .next { s.sampleClock with
      fault := some ⟨.address, .outOfRange, none, if s.pc.toNat = 0xFFF then 0x1000#16 else s.pc⟩ }

/-- R222, R225 (D9): a word that is no instruction raises DecodeFault with the word and the address. -/
def Obligations.IllegalWordRaisesDecodeFault : Prop :=
  ∀ (s : State) (e : Reject), s.enabled = true → s.pc.toNat ≤ 0xFFE →
    decodeWord (wordOfBytes (s.byteAt s.pc.toNat) (s.byteAt (s.pc.toNat + 1))) = .error e →
    step s = .next { s.sampleClock with
      fault := some ⟨.decode, .noKind,
        some (wordOfBytes (s.byteAt s.pc.toNat) (s.byteAt (s.pc.toNat + 1))), s.pc⟩ }

/-- Every step answers a next state: no instruction, word or state stops the machine (log 10: every fault of the spec is a
next state). -/
def Obligations.EveryStepAnswersANextState : Prop :=
  ∀ s : State, ∃ t, step s = .next t

/-- R10 (D1): the time base never decreases. That a sample changes `now` and the count of samples and nothing else speaks of
the model's own fields and is the model's choice (log 3). -/
def Obligations.TimeNeverDecreases : Prop :=
  (∀ s : State, s.now ≤ s.sampleClock.now ∧
    s.sampleClock = { s with now := s.sampleClock.now, samples := s.samples + 1 }) ∧
  ∀ s t : State, step s = .next t → s.now ≤ t.now

/-- R125: every instruction leaves `pc` at exactly the value of the table; one that raised a fault leaves it (R225). -/
def Obligations.PcAfterEveryInstruction : Prop :=
  ∀ (i : Instr) (s t : State), s.fault = none → exec i s = .next t →
    (t.fault = none → t.pc = pcAfter i s) ∧ (t.fault ≠ none → t.pc = s.pc)

/-- R126: after every instruction that completes without a fault, `beep` is "sound enabled and the sound timer reads not
zero", with the `now` the instruction used. -/
def Obligations.SoundFollowsTheTimer : Prop :=
  ∀ s t : State, s.enabled = true → step s = .next t → t.fault = none →
    t.beep = (t.soundEnabled && t.st.read t.now != 0) ∧ t.now = s.sampleClock.now

/-- R225, R226 (D8, D9): a step that raises a fault changes nothing but the record (and the clock sample, log 11). -/
def Obligations.FaultChangesNothingElse : Prop :=
  ∀ s t : State, s.fault = none → step s = .next t → t.fault ≠ none →
    t = { s.sampleClock with fault := t.fault }

/-- R7, R38, R40, R41, R35 (no instruction writes `key`): what only the host writes is never changed by a step. -/
def Obligations.ProgramsNeverWriteHostState : Prop :=
  ∀ s t : State, step s = .next t →
    t.cfg = s.cfg ∧ t.soundEnabled = s.soundEnabled ∧ t.loaded = s.loaded ∧ t.halted = s.halted ∧
    t.key = s.key ∧ t.program = s.program

/-- R67 (by the mechanism of D7): no step changes a byte of 0x000 to 0x04F. No operation of the host changes GLYPHS, for
which R238 and R239 give no port: that clause is the model's choice (log 23). -/
def Obligations.GlyphRegionNeverChanges : Prop :=
  (∀ s t : State, step s = .next t → ∀ a, a ≤ 0x04F → t.byteAt a = s.byteAt a) ∧
  ∀ (s t : State) (op : HostOp), s.act op = .next t → t.cfg.glyphs = s.cfg.glyphs

/-- R22, R25, R26, R34, R36, R60: which instructions can change I, the stack, the framebuffer, memory and the keypad slot;
all others leave them. -/
def Obligations.WritersOfEachState : Prop :=
  ∀ (i : Instr) (s t : State), exec i s = .next t →
    ((∀ nnn, i ≠ .call nnn) → i ≠ .ret → StackSame s t) ∧
    (i ≠ .cls → (∀ x y n, i ≠ .drw x y n) → ScreenSame s t) ∧
    ((∀ x, i ≠ .ldB x) → (∀ x, i ≠ .storeRegs x) → MemSame s t) ∧
    ((∀ nnn, i ≠ .ldI nnn) → (∀ x, i ≠ .addI x) → (∀ x, i ≠ .ldF x) →
      (s.cfg.indexIncrement = true → (∀ x, i ≠ .storeRegs x) ∧ ∀ x, i ≠ .loadRegs x) → IndexSame s t) ∧
    ((∀ x, i ≠ .ldVxK x) →
      (s.cfg.keyqueryConsumesRelease = true → (∀ x, i ≠ .skp x) ∧ ∀ x, i ≠ .sknp x) → KeypadSame s t) ∧
    ((∀ x nn, i ≠ .rnd x nn) → InputsSame s t)

/-- R21: an instruction that is none of the flag writers (the five below; OR, AND, XOR under `CFG.logic_clears_vf`; DRW) and
does not name register 15 as its target leaves VF; the five arithmetic and shift instructions leave it 0 or 1. -/
def Obligations.FlagRegisterWriters : Prop :=
  ∀ (i : Instr) (s t : State), exec i s = .next t →
    ((∀ x y, i ≠ .addReg x y ∧ i ≠ .sub x y ∧ i ≠ .subn x y ∧ i ≠ .shr x y ∧ i ≠ .shl x y) →
      (s.cfg.logicClearsVf = true → ∀ x y, i ≠ .orReg x y ∧ i ≠ .andReg x y ∧ i ≠ .xorReg x y) →
      (∀ x y n, i ≠ .drw x y n) →
      (∀ y nn, i ≠ .ldByte regF nn ∧ i ≠ .addByte regF nn ∧ i ≠ .ldReg regF y ∧ i ≠ .orReg regF y ∧
        i ≠ .andReg regF y ∧ i ≠ .xorReg regF y ∧ i ≠ .rnd regF nn) →
      i ≠ .ldVxDt regF → i ≠ .ldVxK regF → i ≠ .loadRegs regF → t.readV regF = s.readV regF) ∧
    ((∃ x y, i = .addReg x y ∨ i = .sub x y ∨ i = .subn x y ∨ i = .shr x y ∨ i = .shl x y) →
      t.readV regF = 0 ∨ t.readV regF = 1)

/-! ## Invariants -/

/-- The state right after reset meets the invariant. -/
def Obligations.ResetMeetsTheInvariant : Prop := Inv State.reset

/-- Every step keeps the invariant of R45 (`Safety.Inv`), from every state that meets it. -/
def Obligations.StepKeepsTheInvariant : Prop :=
  ∀ s t : State, Inv s → step s = .next t → Inv t

/-- Every operation of the host keeps the invariant (R45, R233). -/
def Obligations.HostKeepsTheInvariant : Prop :=
  ∀ (s t : State) (op : HostOp), Inv s → s.act op = .next t → Inv t

/-- R45: every state that runs and operations of the host can come to, from power-on under any configuration, meets the
invariant. -/
def Obligations.ReachableStatesMeetTheInvariant : Prop :=
  ∀ s : State, Reachable s → Inv s

/-! ## Register load, arithmetic, logic, shift, random -/

/-- R161: LD Vx, byte, encoding and effect. -/
def Obligations.LdByteLoads : Prop :=
  ∀ (s : State) (x : Nibble) (nn : Byte),
    decodeWord (0x6#4 ++ x ++ nn) = .ok (.ldByte x nn) ∧
    ∃ t, exec (.ldByte x nn) s = .next t ∧ t.readV x = nn ∧ t.pc = s.pc + 2 ∧ RegisterFrame (· = x) s t

/-- R162 (VF untouched: D18), R163: ADD Vx, byte and LD Vx, Vy. -/
def Obligations.AddByteAndLdRegWriteOneRegister : Prop :=
  ∀ (s : State) (x y : Nibble) (nn : Byte),
    (∃ t, exec (.addByte x nn) s = .next t ∧
      (t.readV x).toNat = ((s.readV x).toNat + nn.toNat) % 256 ∧ t.pc = s.pc + 2 ∧ RegisterFrame (· = x) s t) ∧
    (∃ t, exec (.ldReg x y) s = .next t ∧
      t.readV x = s.readV y ∧ t.pc = s.pc + 2 ∧ RegisterFrame (· = x) s t)

/-- R164, R165, R166: OR, AND, XOR; VF is zeroed or preserved by `CFG.logic_clears_vf`. -/
def Obligations.LogicOperations : Prop :=
  ∀ (s : State) (x y : Nibble),
    (∃ t, exec (.orReg x y) s = .next t ∧ LogicResult x (s.readV x ||| s.readV y) s t) ∧
    (∃ t, exec (.andReg x y) s = .next t ∧ LogicResult x (s.readV x &&& s.readV y) s t) ∧
    (∃ t, exec (.xorReg x y) s = .next t ∧ LogicResult x (s.readV x ^^^ s.readV y) s t)

/-- R167 (order of result and flag: R160, D17): ADD Vx, Vy. -/
def Obligations.AddRegSumsAndCarries : Prop :=
  ∀ (s : State) (x y : Nibble), ∃ t, exec (.addReg x y) s = .next t ∧
    ResultAndFlag x (((s.readV x).toNat + (s.readV y).toNat) % 256)
      (255 < (s.readV x).toNat + (s.readV y).toNat) s t

/-- R168, R170 (order: R160, D17): SUB and SUBN are the two subtractions, and VF says that no borrow was needed. -/
def Obligations.SubtractionsSetNoBorrowFlag : Prop :=
  ∀ (s : State) (x y : Nibble),
    (∃ t, exec (.sub x y) s = .next t ∧
      ResultAndFlag x (((s.readV x).toNat + 256 - (s.readV y).toNat) % 256)
        ((s.readV y).toNat ≤ (s.readV x).toNat) s t) ∧
    (∃ t, exec (.subn x y) s = .next t ∧
      ResultAndFlag x (((s.readV y).toNat + 256 - (s.readV x).toNat) % 256)
        ((s.readV x).toNat ≤ (s.readV y).toNat) s t)

/-- R169, R171 (flag bit: D21; order: R160, D17): SHR and SHL shift the value `CFG.shift_uses_vy` selects by one place. -/
def Obligations.ShiftsByOnePlace : Prop :=
  ∀ (s : State) (x y : Nibble) (v : Nat),
    v = (if s.cfg.shiftUsesVy then s.readV y else s.readV x).toNat →
    (∃ t, exec (.shr x y) s = .next t ∧ ResultAndFlag x (v / 2) (v % 2 = 1) s t) ∧
    (∃ t, exec (.shl x y) s = .next t ∧ ResultAndFlag x (v * 2 % 256) (128 ≤ v) s t)

/-- R172, R128 (D3): RND Vx, byte masks the next random byte, a free value (log 4), and consumes it. -/
def Obligations.RndMasksAFreeByte : Prop :=
  ∀ (s : State) (x : Nibble) (nn : Byte), ∃ t, exec (.rnd x nn) s = .next t ∧
    t.readV x = Config.randomByte s.draws &&& nn ∧ t.draws = s.draws + 1 ∧ t.pc = s.pc + 2 ∧
    RegsSameBut (· = x) s t ∧ IndexSame s t ∧ StackSame s t ∧ MemSame s t ∧ TimersSame s t ∧ ScreenSame s t ∧
    KeypadSame s t ∧ ControlSame s t ∧ t.now = s.now ∧ t.samples = s.samples

/-! ## Control flow -/

/-- R143: JP addr. -/
def Obligations.JpJumps : Prop :=
  ∀ (s : State) (nnn : Addr12), ∃ t, exec (.jp nnn) s = .next t ∧
    t.pc.toNat = nnn.toNat ∧ RegisterFrame (fun _ => False) s t

/-- R144 (own address pushed: D13; slot: R27, D14): CALL addr. -/
def Obligations.CallPushesItsOwnAddress : Prop :=
  ∀ (s : State) (nnn : Addr12), s.sp.toNat ≤ 15 → ∃ t, exec (.call nnn) s = .next t ∧
    t.pc.toNat = nnn.toNat ∧ t.readSlot s.sp.toNat = s.pc ∧ t.sp.toNat = (s.sp.toNat + 1) % 16 ∧
    (∀ k, k < 16 → k ≠ s.sp.toNat → t.readSlot k = s.readSlot k) ∧
    RegsSameBut (fun _ => False) s t ∧ IndexSame s t ∧ MemSame s t ∧ TimersSame s t ∧ ScreenSame s t ∧
    KeypadSame s t ∧ RestSame s t

/-- R142, R28: RET, encoding and effect: it pops and goes to two past the popped value; the slot keeps its value. -/
def Obligations.RetReturnsPastThePoppedAddress : Prop :=
  decodeWord 0x00EE#16 = .ok .ret ∧
  ∀ s : State, s.sp.toNat ≤ 15 → ∃ t, exec .ret s = .next t ∧
    t.sp.toNat = (if s.sp.toNat = 0 then 15 else s.sp.toNat - 1) ∧
    t.pc.toNat = ((s.readSlot t.sp.toNat).toNat + 2) % 65536 ∧
    (∀ k, t.readSlot k = s.readSlot k) ∧
    RegsSameBut (fun _ => False) s t ∧ IndexSame s t ∧ MemSame s t ∧ TimersSame s t ∧ ScreenSame s t ∧
    KeypadSame s t ∧ RestSame s t

/-- R144 with R142 (D13): a RET after a CALL goes to the instruction after the CALL and gives the stack pointer back, at
every depth of the ring. -/
def Obligations.ReturnAfterCallContinues : Prop :=
  ∀ (s : State) (nnn : Addr12), s.sp.toNat ≤ 15 →
    ∃ t u, exec (.call nnn) s = .next t ∧ exec .ret t = .next u ∧ u.pc = s.pc + 2 ∧ u.sp = s.sp

/-- R145, R146, R147, R148: the four compare-and-skip instructions. -/
def Obligations.ComparesSkipOneInstruction : Prop :=
  ∀ (s : State) (x y : Nibble) (nn : Byte),
    (∃ t, exec (.seByte x nn) s = .next t ∧
      t.pc = (if s.readV x = nn then s.pc + 4 else s.pc + 2) ∧ RegisterFrame (fun _ => False) s t) ∧
    (∃ t, exec (.sneByte x nn) s = .next t ∧
      t.pc = (if s.readV x ≠ nn then s.pc + 4 else s.pc + 2) ∧ RegisterFrame (fun _ => False) s t) ∧
    (∃ t, exec (.seReg x y) s = .next t ∧
      t.pc = (if s.readV x = s.readV y then s.pc + 4 else s.pc + 2) ∧ RegisterFrame (fun _ => False) s t) ∧
    (∃ t, exec (.sneReg x y) s = .next t ∧
      t.pc = (if s.readV x ≠ s.readV y then s.pc + 4 else s.pc + 2) ∧ RegisterFrame (fun _ => False) s t)

/-- R149 (not masked: D4; second form: D20): JP V0, addr, in both forms; neither sum needs a reduction. -/
def Obligations.JumpWithOffset : Prop :=
  ∀ (s : State) (nnn : Addr12), ∃ t, exec (.jpV0 nnn) s = .next t ∧
    (s.cfg.jumpVx = false → t.pc.toNat = nnn.toNat + (s.readV 0).toNat) ∧
    (s.cfg.jumpVx = true →
      t.pc.toNat = nnn.toNat % 256 + (s.readV (BitVec.ofNat 4 (nnn.toNat / 256))).toNat) ∧
    RegisterFrame (fun _ => False) s t

/-- R141, R97 (D11): SYS addr under its two policies. -/
def Obligations.SysFollowsItsPolicy : Prop :=
  ∀ (s : State) (nnn : Addr12),
    (s.cfg.sysPolicy = .nop → exec (.sys nnn) s = .next { s with pc := s.pc + 2 }) ∧
    (s.cfg.sysPolicy = .fault → exec (.sys nnn) s =
      .next { s with fault := some ⟨.decode, .noKind, some (BitVec.ofNat 16 nnn.toNat), s.pc⟩ })

/-! ## Index register and memory -/

/-- R181, R182 (D6, D18), R183 (D19): LD I, ADD I and LD F write I alone and never fault. -/
def Obligations.IndexInstructionsWriteI : Prop :=
  ∀ (s : State) (x : Nibble) (nnn : Addr12),
    (∃ t, exec (.ldI nnn) s = .next t ∧ t.i.toNat = nnn.toNat ∧
      t = { s with i := t.i, pc := s.pc + 2 }) ∧
    (∃ t, exec (.addI x) s = .next t ∧ t.i.toNat = (s.i.toNat + (s.readV x).toNat) % 65536 ∧
      t = { s with i := t.i, pc := s.pc + 2 }) ∧
    (∃ t, exec (.ldF x) s = .next t ∧ t.i.toNat = 5 * ((s.readV x).toNat % 16) ∧
      t = { s with i := t.i, pc := s.pc + 2 })

/-- R184: LD B, Vx, where all three bytes are in memory and above the glyph table (R66, D6; R67, D7). -/
def Obligations.DecimalDigitsAreStored : Prop :=
  ∀ (s : State) (x : Nibble), Memory.wf s.cfg.glyphs s.mem → 0x050 ≤ s.i.toNat → s.i.toNat + 2 ≤ 0xFFF →
    ∃ t, exec (.ldB x) s = .next t ∧
      (t.byteAt s.i.toNat).toNat = (s.readV x).toNat / 100 ∧
      (t.byteAt (s.i.toNat + 1)).toNat = (s.readV x).toNat / 10 % 10 ∧
      (t.byteAt (s.i.toNat + 2)).toNat = (s.readV x).toNat % 10 ∧
      t.i = s.i ∧ t.pc = s.pc + 2 ∧ StoreFrame 3 s t

/-- R185: LD [I], Vx, where all bytes are in memory and above the glyph table (R66, D6; R67, D7). -/
def Obligations.RegistersAreStored : Prop :=
  ∀ (s : State) (x : Nibble), Memory.wf s.cfg.glyphs s.mem → 0x050 ≤ s.i.toNat → s.i.toNat + x.toNat ≤ 0xFFF →
    ∃ t, exec (.storeRegs x) s = .next t ∧
      (∀ k : Nibble, k.toNat ≤ x.toNat → t.byteAt (s.i.toNat + k.toNat) = s.readV k) ∧
      t.i.toNat = (if s.cfg.indexIncrement then (s.i.toNat + x.toNat + 1) % 65536 else s.i.toNat) ∧
      t.pc = s.pc + 2 ∧ StoreFrame (x.toNat + 1) s t

/-- R186: LD Vx, [I], where all bytes are in memory (R66, D6). -/
def Obligations.RegistersAreLoaded : Prop :=
  ∀ (s : State) (x : Nibble), s.i.toNat + x.toNat ≤ 0xFFF →
    ∃ t, exec (.loadRegs x) s = .next t ∧
      (∀ k : Nibble, k.toNat ≤ x.toNat → t.readV k = s.byteAt (s.i.toNat + k.toNat)) ∧
      t.i.toNat = (if s.cfg.indexIncrement then (s.i.toNat + x.toNat + 1) % 65536 else s.i.toNat) ∧
      t.pc = s.pc + 2 ∧ RegsSameBut (fun r => r.toNat ≤ x.toNat) s t ∧ MemSame s t ∧ StackSame s t ∧
      TimersSame s t ∧ ScreenSame s t ∧ KeypadSame s t ∧ RestSame s t

/-- R66, R67, R71, R224 (D6, D7, D8): where LD B, LD [I], LD Vx,[I] and a performed DRW fault: the record with the lowest
offending address, and nothing else changed. -/
def Obligations.AccessesFaultWhole : Prop :=
  ∀ (s : State) (x y n : Nibble),
    (0xFFF < s.i.toNat + 2 → exec (.ldB x) s = .next (withAddressFault s .outOfRange (.ldB x) (max s.i.toNat 0x1000))) ∧
    (s.i.toNat ≤ 0x04F → exec (.ldB x) s = .next (withAddressFault s .glyphWrite (.ldB x) s.i.toNat)) ∧
    (0xFFF < s.i.toNat + x.toNat →
      exec (.storeRegs x) s = .next (withAddressFault s .outOfRange (.storeRegs x) (max s.i.toNat 0x1000))) ∧
    (s.i.toNat ≤ 0x04F → exec (.storeRegs x) s = .next (withAddressFault s .glyphWrite (.storeRegs x) s.i.toNat)) ∧
    (0xFFF < s.i.toNat + x.toNat →
      exec (.loadRegs x) s = .next (withAddressFault s .outOfRange (.loadRegs x) (max s.i.toNat 0x1000))) ∧
    (s.drawLimited = false → 1 ≤ n.toNat → 0x1000 < s.i.toNat + n.toNat →
      exec (.drw x y n) s = .next (withAddressFault s .outOfRange (.drw x y n) (max s.i.toNat 0x1000)))

/-- R75, R68 (D27): two registers stored by LD [I], Vx are fetched as one word, `V[0]` its high byte, with nothing in
between. -/
def Obligations.StoredCodeIsFetched : Prop :=
  ∀ (s t : State) (x : Nibble), Memory.wf s.cfg.glyphs s.mem → s.fault = none → 1 ≤ x.toNat →
    exec (.storeRegs x) s = .next t → t.fault = none →
    (t.setPc s.i).fetch = .ok (s.readV 0 ++ s.readV 1)

/-! ## Display -/

/-- R190: CLS clears every pixel; VF and the time of the last draw stay. -/
def Obligations.ClsClearsTheScreen : Prop :=
  ∀ s : State, ∃ t, exec .cls s = .next t ∧ (∀ r c, pixel t.fb r c = false) ∧
    t.lastDraw = s.lastDraw ∧ t.pc = s.pc + 2 ∧
    RegsSameBut (fun _ => False) s t ∧ IndexSame s t ∧ StackSame s t ∧ MemSame s t ∧ TimersSame s t ∧
    KeypadSame s t ∧ RestSame s t

/-- R191, R193, R194, R195, R196 (corner cases D22): a performed DRW toggles exactly the pixels the sprite covers, in clip and
in wrap mode, and VF says whether a lit pixel was covered. -/
def Obligations.DrawTogglesCoveredPixels : Prop :=
  ∀ (s : State) (x y n : Nibble), s.drawLimited = false → s.i.toNat + n.toNat ≤ 0x1000 ∨ n = 0 →
    ∃ t, exec (.drw x y n) s = .next t ∧
      (∀ r c, pixel t.fb r c ≠ pixel s.fb r c ↔
        Covers s n.toNat ((s.readV x).toNat % 64) ((s.readV y).toNat % 32) r c) ∧
      ((∃ r c, pixel s.fb r c = true ∧
          Covers s n.toNat ((s.readV x).toNat % 64) ((s.readV y).toNat % 32) r c) → t.readV regF = 1) ∧
      ((¬ ∃ r c, pixel s.fb r c = true ∧
          Covers s n.toNat ((s.readV x).toNat % 64) ((s.readV y).toNat % 32) r c) → t.readV regF = 0) ∧
      t.lastDraw = some s.now ∧ t.pc = s.pc + 2 ∧
      RegsSameBut (· = regF) s t ∧ IndexSame s t ∧ StackSame s t ∧ MemSame s t ∧ TimersSame s t ∧
      KeypadSame s t ∧ RestSame s t

/-- R192 (boundary and first draw: D22): a DRW sooner than the minimum interval after the last performed one only
advances `pc`; otherwise it is not skipped. -/
def Obligations.EarlyDrawIsSkipped : Prop :=
  ∀ (s : State) (x y n : Nibble),
    (∀ t, s.lastDraw = some t → s.now - t < s.cfg.minDrawInterval →
      exec (.drw x y n) s = .next { s with pc := s.pc + 2 }) ∧
    ((s.lastDraw = none ∨ ∃ t, s.lastDraw = some t ∧ s.cfg.minDrawInterval ≤ s.now - t) →
      s.drawLimited = false)

/-- R196: drawing the same sprite twice at the same place restores the framebuffer; the second draw reports a collision
exactly when the sprite covers a pixel that was dark at the start (log 22). -/
def Obligations.DrawingTwiceRestores : Prop :=
  ∀ (s t : State) (x y n : Nibble) (later : Time), s.fault = none → s.drawLimited = false →
    exec (.drw x y n) s = .next t → t.fault = none → ({ t with now := later } : State).drawLimited = false →
    (t.readV x).toNat % 64 = (s.readV x).toNat % 64 → (t.readV y).toNat % 32 = (s.readV y).toNat % 32 →
    ∃ u, exec (.drw x y n) { t with now := later } = .next u ∧ u.fb = s.fb ∧
      (u.readV regF = 1 ↔ ∃ r c, pixel s.fb r c = false ∧
        Covers s n.toNat ((s.readV x).toNat % 64) ((s.readV y).toNat % 32) r c)

/-! ## Timers and keypad -/

/-- R201 with R31 (D2): LD Vx, DT reads the decayed value. -/
def Obligations.DelayTimerIsRead : Prop :=
  ∀ (s : State) (x : Nibble), ∃ t, exec (.ldVxDt x) s = .next t ∧
    ((t.readV x).toNat : Int) =
      min 255 (max 0 (((s.dt.val.toNat : Rat) - 60 * (s.now - s.dt.stamp) + 1 / 2).floor)) ∧
    t.pc = s.pc + 2 ∧ RegisterFrame (· = x) s t

/-- R30 (in LD DT, Vx and LD ST, Vx of R202, R203): a write stores the value and the instant; no other instruction writes
a timer, and of the operations of the host only a reset does. -/
def Obligations.TimersAreWritten : Prop :=
  (∀ (s : State) (x : Nibble),
    exec (.ldDtVx x) s = .next { s with dt := ⟨s.readV x, s.now⟩, pc := s.pc + 2 } ∧
    exec (.ldStVx x) s = .next { s with st := ⟨s.readV x, s.now⟩, pc := s.pc + 2 }) ∧
  (∀ (i : Instr) (s t : State), exec i s = .next t →
    ((∀ x, i ≠ .ldDtVx x) → t.dt = s.dt) ∧ ((∀ x, i ≠ .ldStVx x) → t.st = s.st)) ∧
  ∀ (op : HostOp) (s t : State), s.act op = .next t →
    (∀ image origin, op ≠ .load image origin) → op ≠ .unload → op ≠ .restart → op ≠ .tick →
    t.dt = s.dt ∧ t.st = s.st

/-- R31 (its consequences, derived there; ties D2): when a timer reads each value. -/
def Obligations.TimerDecaysSixtyPerSecond : Prop :=
  ∀ (t : Timer) (now : Time), t.stamp ≤ now →
    (t.val.toNat = 0 → t.read now = 0) ∧
    (now - t.stamp ≤ 1 / 120 → t.read now = t.val) ∧
    (∀ k : Nat, 1 ≤ k → k < t.val.toNat → (2 * (k : Rat) - 1) / 120 < now - t.stamp →
      now - t.stamp ≤ (2 * (k : Rat) + 1) / 120 → (t.read now).toNat = t.val.toNat - k) ∧
    ((2 * (t.val.toNat : Rat) - 1) / 120 < now - t.stamp → 1 ≤ t.val.toNat → t.read now = 0)

/-- R32 (derived there from R31): a later read never returns more than an earlier one. -/
def Obligations.TimerNeverRises : Prop :=
  ∀ (t : Timer) (now later : Time), now ≤ later → (t.read later).toNat ≤ (t.read now).toNat

/-- R204, R205, R207 (key index: R209, D19): SKP and SKNP skip by the state of the key, and empty the last-released slot
exactly under `CFG.keyquery_consumes_release`. -/
def Obligations.KeySkips : Prop :=
  ∀ (s : State) (x : Nibble),
    (∃ t, exec (.skp x) s = .next t ∧
      t = { s with
        pc := if s.keyDown (queriedKey s x) = true then s.pc + 4 else s.pc + 2
        released := if s.cfg.keyqueryConsumesRelease then none else s.released }) ∧
    (∃ t, exec (.sknp x) s = .next t ∧
      t = { s with
        pc := if s.keyDown (queriedKey s x) = false then s.pc + 4 else s.pc + 2
        released := if s.cfg.keyqueryConsumesRelease then none else s.released })

/-- R206, R208: LD Vx, K takes a pending release and goes on, or changes nothing and is executed again. -/
def Obligations.KeyWaitTakesARelease : Prop :=
  ∀ (s : State) (x : Nibble),
    (∀ k, s.released = some k → ∃ t, exec (.ldVxK x) s = .next t ∧
      (t.readV x).toNat = k.toNat ∧ t.released = none ∧ t.pc = s.pc + 2 ∧
      RegsSameBut (· = x) s t ∧ IndexSame s t ∧ StackSame s t ∧ MemSame s t ∧ TimersSame s t ∧ ScreenSame s t ∧
      t.key = s.key ∧ RestSame s t) ∧
    (s.released = none → exec (.ldVxK x) s = .next s)

/-! ## Reset and the host -/

/-- R46: the state after reset; memory holds GLYPHS, whatever they are, and zeros. That its origin is 0x200 and its image
has no bytes is the model's choice (log 5). -/
def Obligations.ResetValues : Prop :=
  FreshState State.reset ∧ State.reset.loaded = true ∧ State.reset.fault = none ∧ State.reset.pc = 0x200 ∧
  ∀ a, State.reset.byteAt a = State.reset.cfg.glyphs.toList.getD a 0

/-- R250, R252, R253, R254, R46, R61 (D15, D30): a load of an image that fits; every earlier piece of state is gone but the
configuration and the sound toggle. -/
def Obligations.LoadResetsTheMachine : Prop :=
  ∀ (s : State) (image : List Byte) (origin : Word), origin.toNat + image.length ≤ 4096 →
    ∃ t, s.act (.load image origin) = .next t ∧ FreshState t ∧ t.loaded = true ∧ t.fault = none ∧
      t.pc = origin ∧ t.cfg = s.cfg ∧ t.soundEnabled = s.soundEnabled ∧ s.now ≤ t.now ∧
      (∀ (k : Nat) (h : k < image.length), t.byteAt (origin.toNat + k) = image[k]) ∧
      (∀ a, (a < origin.toNat ∨ origin.toNat + image.length ≤ a) →
        t.byteAt a = s.cfg.glyphs.toList.getD a 0)

/-- R251, R221 (D25): a load of an image that does not fit leaves the unloaded state with a ConfigFault, in which ticks do
nothing. -/
def Obligations.LoadThatDoesNotFitFaults : Prop :=
  ∀ (s : State) (image : List Byte) (origin : Word), 4096 < origin.toNat + image.length →
    ∃ t, s.act (.load image origin) = .next t ∧ FreshState t ∧ t.loaded = false ∧
      t.fault = some ⟨.config, .noKind, none, origin⟩ ∧ (∀ a, t.byteAt a = s.cfg.glyphs.toList.getD a 0) ∧
      t.cfg = s.cfg ∧ t.soundEnabled = s.soundEnabled ∧ t.tick = .next t

/-- R255 (D25): restart after a load that fitted loads the same image at the same origin again, whatever the program did. -/
def Obligations.RestartLoadsTheImageAgain : Prop :=
  ∀ (s t : State) (image : List Byte) (origin : Word), origin.toNat + image.length ≤ 4096 →
    s.act (.load image origin) = .next t →
    ∀ (n : Nat) (u : State), runSteps n t = .next u → u.act .restart = u.act (.load image origin)

/-- R235 (unloaded machine: D24): the keypad's input. -/
def Obligations.KeyInputRecordsReleases : Prop :=
  ∀ (s : State) (k : Nibble) (down : Bool), ∃ t, s.act (.setKey k down) = .next t ∧
    (s.loaded = false → t = s) ∧
    (s.loaded = true → t.keyDown k = down ∧ (∀ j, j ≠ k → t.keyDown j = s.keyDown j) ∧
      (s.keyDown k = true → down = false → t.released = some k) ∧
      (¬ (s.keyDown k = true ∧ down = false) → t.released = s.released) ∧
      t = { s with key := t.key, released := t.released })

/-- R236: halt, resume and toggle_halt write `halted` and nothing else; a load clears it. -/
def Obligations.HaltSwitches : Prop :=
  ∀ s : State,
    s.act .halt = .next { s with halted := true } ∧
    s.act .resume = .next { s with halted := false } ∧
    s.act .toggleHalt = .next { s with halted := !s.halted } ∧
    ∀ (image : List Byte) (origin : Word) (t : State), s.act (.load image origin) = .next t → t.halted = false

/-- R238, R239, R241 (D23): the sound toggle and the options; an option of the record changes that option alone. -/
def Obligations.HostSettings : Prop :=
  ∀ (s : State) (b : Bool),
    s.act (.setSoundEnabled false) = .next { s with soundEnabled := false, beep := false } ∧
    s.act (.setSoundEnabled true) = .next { s with soundEnabled := true } ∧
    (∀ n, s.act (.setIpt n) = .next { s with cfg := { s.cfg with ipt := n } }) ∧
    (∀ q, s.act (.setMinDrawInterval q) = .next { s with cfg := { s.cfg with minDrawInterval := q } }) ∧
    (∀ p, s.act (.setSysPolicy p) = .next { s with cfg := { s.cfg with sysPolicy := p } }) ∧
    s.act (.setQuirk .shiftUsesVy b) = .next { s with cfg := { s.cfg with shiftUsesVy := b } } ∧
    s.act (.setQuirk .indexIncrement b) = .next { s with cfg := { s.cfg with indexIncrement := b } } ∧
    s.act (.setQuirk .spriteWrap b) = .next { s with cfg := { s.cfg with spriteWrap := b } } ∧
    s.act (.setQuirk .jumpVx b) = .next { s with cfg := { s.cfg with jumpVx := b } } ∧
    s.act (.setQuirk .logicClearsVf b) = .next { s with cfg := { s.cfg with logicClearsVf := b } } ∧
    s.act (.setQuirk .keyqueryConsumesRelease b) =
      .next { s with cfg := { s.cfg with keyqueryConsumesRelease := b } }

/-- R121 (D24, D30): a tick is `CFG.ipt` steps, none when that is 0, and stops at the first fault. -/
def Obligations.TickStopsAtAFault : Prop :=
  ∀ s : State, s.enabled = true →
    (s.cfg.ipt = 0 → s.tick = .next s) ∧
    ∀ (k : Nat) (t : State), k ≤ s.cfg.ipt → runSteps k s = .next t →
      (k = s.cfg.ipt ∨ t.fault ≠ none) → s.tick = .next t
end

