-- ==== Sys2Proof/Laws/Decode.lean ====
section
/-! SUPPORT. The views of 30_encoding.md R91 and the formats of R92 as arithmetic, and each view of each format. -/

namespace Sys2Proof

theorem fieldOp_toNat (w : Word) : (fieldOp w).toNat = w.toNat / 4096 := by
  have := w.isLt
  simp only [fieldOp, BitVec.extractLsb'_toNat, Nat.shiftRight_eq_div_pow]
  omega

theorem fieldX_toNat (w : Word) : (fieldX w).toNat = w.toNat / 256 % 16 := by
  simp [fieldX, BitVec.extractLsb'_toNat, Nat.shiftRight_eq_div_pow]

theorem fieldY_toNat (w : Word) : (fieldY w).toNat = w.toNat / 16 % 16 := by
  simp [fieldY, BitVec.extractLsb'_toNat, Nat.shiftRight_eq_div_pow]

theorem fieldN_toNat (w : Word) : (fieldN w).toNat = w.toNat % 16 := by
  simp [fieldN, BitVec.extractLsb'_toNat]

theorem fieldNN_toNat (w : Word) : (fieldNN w).toNat = w.toNat % 256 := by
  simp [fieldNN, BitVec.extractLsb'_toNat]

theorem fieldNNN_toNat (w : Word) : (fieldNNN w).toNat = w.toNat % 4096 := by
  simp [fieldNNN, BitVec.extractLsb'_toNat]

/-- The number of a concatenation. -/
theorem append_toNat {m n : Nat} (a : BitVec m) (b : BitVec n) :
    (a ++ b).toNat = a.toNat * 2 ^ n + b.toNat := by
  rw [BitVec.toNat_append, ← Nat.shiftLeft_add_eq_or_of_lt b.isLt, Nat.shiftLeft_eq]

theorem wordOfBytes_toNat (hi lo : Byte) : (wordOfBytes hi lo).toNat = hi.toNat * 256 + lo.toNat :=
  append_toNat hi lo

theorem encodeXI_toNat (op x : Nibble) (nn : Byte) :
    (encodeXI op x nn).toNat = op.toNat * 4096 + x.toNat * 256 + nn.toNat := by
  have h := append_toNat (op ++ x) nn
  rw [append_toNat op x] at h
  refine h.trans ?_
  ring

theorem encodeA_toNat (op : Nibble) (nnn : Addr12) :
    (encodeA op nnn).toNat = op.toNat * 4096 + nnn.toNat := by
  refine (append_toNat op nnn).trans ?_
  ring

theorem encodeXYN_toNat (op x y n : Nibble) :
    (encodeXYN op x y n).toNat = op.toNat * 4096 + x.toNat * 256 + y.toNat * 16 + n.toNat := by
  have h := append_toNat (op ++ x ++ y) n
  rw [append_toNat (op ++ x) y, append_toNat op x] at h
  refine h.trans ?_
  ring

section
variable (op x y n : Nibble) (nn : Byte) (nnn : Addr12)

@[simp] theorem fieldOp_encodeXI : fieldOp (encodeXI op x nn) = op :=
  BitVec.eq_of_toNat_eq (by rw [fieldOp_toNat, encodeXI_toNat]; omega)

@[simp] theorem fieldX_encodeXI : fieldX (encodeXI op x nn) = x :=
  BitVec.eq_of_toNat_eq (by rw [fieldX_toNat, encodeXI_toNat]; omega)

@[simp] theorem fieldNN_encodeXI : fieldNN (encodeXI op x nn) = nn :=
  BitVec.eq_of_toNat_eq (by rw [fieldNN_toNat, encodeXI_toNat]; omega)

@[simp] theorem fieldOp_encodeA : fieldOp (encodeA op nnn) = op :=
  BitVec.eq_of_toNat_eq (by rw [fieldOp_toNat, encodeA_toNat]; omega)

@[simp] theorem fieldNNN_encodeA : fieldNNN (encodeA op nnn) = nnn :=
  BitVec.eq_of_toNat_eq (by rw [fieldNNN_toNat, encodeA_toNat]; omega)

@[simp] theorem fieldOp_encodeXYN : fieldOp (encodeXYN op x y n) = op :=
  BitVec.eq_of_toNat_eq (by rw [fieldOp_toNat, encodeXYN_toNat]; omega)

@[simp] theorem fieldX_encodeXYN : fieldX (encodeXYN op x y n) = x :=
  BitVec.eq_of_toNat_eq (by rw [fieldX_toNat, encodeXYN_toNat]; omega)

@[simp] theorem fieldY_encodeXYN : fieldY (encodeXYN op x y n) = y :=
  BitVec.eq_of_toNat_eq (by rw [fieldY_toNat, encodeXYN_toNat]; omega)

@[simp] theorem fieldN_encodeXYN : fieldN (encodeXYN op x y n) = n :=
  BitVec.eq_of_toNat_eq (by rw [fieldN_toNat, encodeXYN_toNat]; omega)

end

/-- A word is format XI of its own views. -/
theorem encodeXI_fields (w : Word) : encodeXI (fieldOp w) (fieldX w) (fieldNN w) = w :=
  BitVec.eq_of_toNat_eq (by
    have := w.isLt
    rw [encodeXI_toNat, fieldOp_toNat, fieldX_toNat, fieldNN_toNat]
    omega)

/-- A word is format A of its own views. -/
theorem encodeA_fields (w : Word) : encodeA (fieldOp w) (fieldNNN w) = w :=
  BitVec.eq_of_toNat_eq (by
    have := w.isLt
    rw [encodeA_toNat, fieldOp_toNat, fieldNNN_toNat]
    omega)

/-- A word is format XYN of its own views. -/
theorem encodeXYN_fields (w : Word) : encodeXYN (fieldOp w) (fieldX w) (fieldY w) (fieldN w) = w :=
  BitVec.eq_of_toNat_eq (by
    have := w.isLt
    rw [encodeXYN_toNat, fieldOp_toNat, fieldX_toNat, fieldY_toNat, fieldN_toNat]
    omega)

/-! The masks of R94 keep the fixed nibbles and clear the fields. -/

theorem and_ones (a : Nibble) : a &&& 0xF#4 = a := BitVec.and_allOnes

theorem encodeA_mask (op : Nibble) (nnn : Addr12) : encodeA op nnn &&& 0xF000#16 = encodeA op 0 := by
  have h := BitVec.and_append (x₁ := op) (x₂ := 0xF#4) (y₁ := nnn) (y₂ := 0#12)
  simp only [BitVec.and_zero, and_ones] at h
  exact h

theorem and_keepHigh (a b : Nibble) : (a ++ b) &&& (0xF#4 ++ 0#4) = a ++ 0#4 := by
  rw [BitVec.and_append, BitVec.and_zero, and_ones]

theorem and_keepFirst (a b c : Nibble) : (a ++ b ++ c) &&& (0xF#4 ++ 0#4 ++ 0#4) = a ++ 0#4 ++ 0#4 := by
  rw [BitVec.and_append, BitVec.and_zero, and_keepHigh]

theorem encodeXI_mask (op x : Nibble) (nn : Byte) : encodeXI op x nn &&& 0xF000#16 = encodeXI op 0 0 :=
  (BitVec.and_append (x₁ := op ++ x) (x₂ := 0xF#4 ++ 0#4) (y₁ := nn) (y₂ := 0#8)).trans
    (by rw [and_keepHigh, BitVec.and_zero]; rfl)

theorem encodeXI_maskByte (op x : Nibble) (nn : Byte) : encodeXI op x nn &&& 0xF0FF#16 = encodeXI op 0 nn :=
  (BitVec.and_append (x₁ := op ++ x) (x₂ := 0xF#4 ++ 0#4) (y₁ := nn) (y₂ := 0xFF#8)).trans
    (by rw [and_keepHigh, show nn &&& 0xFF#8 = nn from BitVec.and_allOnes]; rfl)

theorem encodeXYN_maskNibble (op x y n : Nibble) : encodeXYN op x y n &&& 0xF00F#16 = encodeXYN op 0 0 n :=
  (BitVec.and_append (x₁ := op ++ x ++ y) (x₂ := 0xF#4 ++ 0#4 ++ 0#4) (y₁ := n) (y₂ := 0xF#4)).trans
    (by rw [and_keepFirst, and_ones]; rfl)

theorem encodeXYN_mask (op x y n : Nibble) : encodeXYN op x y n &&& 0xF000#16 = encodeXYN op 0 0 0 :=
  (BitVec.and_append (x₁ := op ++ x ++ y) (x₂ := 0xF#4 ++ 0#4 ++ 0#4) (y₁ := n) (y₂ := 0#4)).trans
    (by rw [and_keepFirst, BitVec.and_zero]; rfl)

/-- R68, R90: the two bytes of a word, high byte first, make the word again. -/
theorem wordOfBytes_bytes (w : Word) : wordOfBytes (highByte w) (lowByte w) = w :=
  BitVec.eq_of_toNat_eq (by
    have := w.isLt
    rw [wordOfBytes_toNat]
    simp only [highByte, lowByte, BitVec.extractLsb'_toNat, Nat.shiftRight_eq_div_pow]
    omega)

end Sys2Proof
end

