-- ==== Sys2Proof/Laws/Memory.lean ====
section
/-! SUPPORT. What the memory operations do: reading after a write, and that the canonical form is kept. -/

namespace Sys2Proof.Machine

variable (g : Glyphs)

/-! ## Reading after a write -/

theorem Memory.peek_cons_other (a : Nat) (v : Byte) (m : Memory) (c : Nat) (h : c ≠ a) :
    Memory.peek g (Memory.cons g a v m) c = Memory.peek g m c := by
  unfold Memory.cons
  split
  · rfl
  · simp [Memory.peek, Ne.symm h]

/-- A write leaves every other address alone, in any memory. -/
theorem Memory.peek_poke_other (m : Memory) (a : Nat) (v : Byte) (c : Nat) (h : c ≠ a) :
    Memory.peek g (Memory.poke g m a v) c = Memory.peek g m c := by
  induction m with
  | nil => simp only [Memory.poke]; exact Memory.peek_cons_other g a v [] c h
  | cons cell rest ih =>
    obtain ⟨b, u⟩ := cell
    simp only [Memory.poke]
    split
    · exact Memory.peek_cons_other g a v _ c h
    · split
      · rename_i hab
        rw [Memory.peek_cons_other g a v rest c h]
        simp [Memory.peek, ← hab, Ne.symm h]
      · simp only [Memory.peek, ih]

theorem Memory.peek_of_lt (m : Memory) (a : Nat) (h : ∀ c ∈ m, a < c.1) :
    Memory.peek g m a = Memory.unlisted g a := by
  induction m with
  | nil => rfl
  | cons cell rest ih =>
    obtain ⟨b, u⟩ := cell
    have hb := h (b, u) (List.mem_cons_self ..)
    simp only [Memory.peek]
    rw [if_neg (by simp at hb; omega)]
    exact ih fun c hc => h c (List.mem_cons_of_mem _ hc)

theorem Memory.peek_cons_same (a : Nat) (v : Byte) (m : Memory) (h : ∀ c ∈ m, a < c.1) :
    Memory.peek g (Memory.cons g a v m) a = v := by
  unfold Memory.cons
  split
  · rename_i hv
    rw [Memory.peek_of_lt g m a h, hv]
  · simp [Memory.peek]

/-- A read gives the value last written to that address. -/
theorem Memory.peek_poke_same (m : Memory) (a : Nat) (v : Byte) (hm : m.Pairwise (fun c d => c.1 < d.1)) :
    Memory.peek g (Memory.poke g m a v) a = v := by
  induction m with
  | nil => exact Memory.peek_cons_same g a v [] (by simp)
  | cons cell rest ih =>
    obtain ⟨b, u⟩ := cell
    rw [List.pairwise_cons] at hm
    simp only [Memory.poke]
    split
    · rename_i hab
      refine Memory.peek_cons_same g a v _ fun c hc => ?_
      rcases List.mem_cons.1 hc with rfl | hc
      · exact hab
      · exact Nat.lt_trans hab (hm.1 c hc)
    · split
      · rename_i hab
        exact Memory.peek_cons_same g a v rest fun c hc => by have := hm.1 c hc; omega
      · simp only [Memory.peek]
        rw [if_neg (by omega)]
        exact ih hm.2

/-! ## The canonical form -/

theorem Memory.mem_cons_iff (a : Nat) (v : Byte) (m : Memory) (c : Host.Cell) (h : c ∈ Memory.cons g a v m) :
    c ∈ m ∨ (c = (a, v) ∧ v ≠ Memory.unlisted g a) := by
  unfold Memory.cons at h
  split at h
  · exact .inl h
  · rename_i hv
    rcases List.mem_cons.1 h with rfl | h
    · exact .inr ⟨rfl, hv⟩
    · exact .inl h

theorem Memory.cons_wf (a : Nat) (v : Byte) (m : Memory) (hm : Memory.wf g m) (ha : a < Memory.size)
    (h : ∀ c ∈ m, a < c.1) : Memory.wf g (Memory.cons g a v m) := by
  refine ⟨?_, fun c hc => ?_⟩
  · unfold Memory.cons
    split
    · exact hm.1
    · exact List.pairwise_cons.2 ⟨h, hm.1⟩
  · rcases Memory.mem_cons_iff g a v m c hc with hc | ⟨rfl, hv⟩
    · exact hm.2 c hc
    · exact ⟨ha, hv⟩

theorem Memory.mem_poke (m : Memory) (a : Nat) (v : Byte) (c : Host.Cell) (h : c ∈ Memory.poke g m a v) :
    c ∈ m ∨ c.1 = a := by
  induction m with
  | nil =>
    rcases Memory.mem_cons_iff g a v [] c h with h | ⟨rfl, _⟩
    · exact .inl h
    · exact .inr rfl
  | cons cell rest ih =>
    obtain ⟨b, u⟩ := cell
    simp only [Memory.poke] at h
    split at h
    · rcases Memory.mem_cons_iff g a v _ c h with h | ⟨rfl, _⟩
      · exact .inl h
      · exact .inr rfl
    · split at h
      · rcases Memory.mem_cons_iff g a v _ c h with h | ⟨rfl, _⟩
        · exact .inl (List.mem_cons_of_mem _ h)
        · exact .inr rfl
      · rcases List.mem_cons.1 h with rfl | h
        · exact .inl (List.mem_cons_self ..)
        · rcases ih h with h | h
          · exact .inl (List.mem_cons_of_mem _ h)
          · exact .inr h

/-- A write of one byte keeps the canonical form. -/
theorem Memory.poke_wf (m : Memory) (a : Nat) (v : Byte) (hm : Memory.wf g m) (ha : a < Memory.size) :
    Memory.wf g (Memory.poke g m a v) := by
  induction m with
  | nil => exact Memory.cons_wf g a v [] hm ha (by simp)
  | cons cell rest ih =>
    obtain ⟨b, u⟩ := cell
    have hp := List.pairwise_cons.1 hm.1
    have hrest : Memory.wf g rest := ⟨hp.2, fun c hc => hm.2 c (List.mem_cons_of_mem _ hc)⟩
    simp only [Memory.poke]
    split
    · rename_i hab
      refine Memory.cons_wf g a v _ hm ha fun c hc => ?_
      rcases List.mem_cons.1 hc with rfl | hc
      · exact hab
      · exact Nat.lt_trans hab (hp.1 c hc)
    · split
      · rename_i hab
        exact Memory.cons_wf g a v rest hrest ha fun c hc => by have := hp.1 c hc; omega
      · refine ⟨List.pairwise_cons.2 ⟨fun c hc => ?_, (ih hrest).1⟩, fun c hc => ?_⟩
        · rcases Memory.mem_poke g rest a v c hc with hc | hc
          · exact hp.1 c hc
          · simp only; omega
        · rcases List.mem_cons.1 hc with rfl | hc
          · exact hm.2 _ (List.mem_cons_self ..)
          · exact (ih hrest).2 c hc

/-! ## Blocks of bytes -/

/-- A block store keeps the canonical form. -/
theorem Memory.store_wf (m : Memory) (a : Nat) (bytes : List Byte) (hm : Memory.wf g m)
    (ha : a + bytes.length ≤ Memory.size) : Memory.wf g (Memory.store g m a bytes) := by
  induction bytes generalizing m a with
  | nil => exact hm
  | cons v vs ih =>
    simp only [List.length_cons] at ha
    exact ih (Memory.poke g m a v) (a + 1) (Memory.poke_wf g m a v hm (by omega)) (by omega)

/-- A block store leaves every byte outside the block alone, in any memory. -/
theorem Memory.peek_store_other (m : Memory) (a : Nat) (bytes : List Byte) (c : Nat)
    (h : c < a ∨ a + bytes.length ≤ c) : Memory.peek g (Memory.store g m a bytes) c = Memory.peek g m c := by
  induction bytes generalizing m a with
  | nil => rfl
  | cons v vs ih =>
    simp only [List.length_cons] at h
    simp only [Memory.store]
    rw [ih (Memory.poke g m a v) (a + 1) (by omega)]
    exact Memory.peek_poke_other g m a v c (by omega)

/-- A block store puts byte `k` of the block at `a + k`. -/
theorem Memory.peek_store_same (m : Memory) (a : Nat) (bytes : List Byte) (hm : Memory.wf g m)
    (ha : a + bytes.length ≤ Memory.size) (k : Nat) (hk : k < bytes.length) :
    Memory.peek g (Memory.store g m a bytes) (a + k) = bytes[k] := by
  induction bytes generalizing m a k with
  | nil => simp at hk
  | cons v vs ih =>
    simp only [List.length_cons] at ha hk
    simp only [Memory.store]
    cases k with
    | zero =>
      rw [Memory.peek_store_other g _ _ _ _ (by omega)]
      exact Memory.peek_poke_same g m a v hm.1
    | succ k =>
      have := ih (Memory.poke g m a v) (a + 1) (Memory.poke_wf g m a v hm (by omega)) (by omega) k (by omega)
      rw [show a + (k + 1) = a + 1 + k by omega, this]
      rfl

@[simp] theorem Memory.load_length (m : Memory) (a n : Nat) : (Memory.load g m a n).length = n := by
  simp [Memory.load]

theorem Memory.getElem_load (m : Memory) (a n k : Nat) (h : k < (Memory.load g m a n).length) :
    (Memory.load g m a n)[k] = Memory.peek g m (a + k) := by
  simp [Memory.load]

/-- Memory right after reset, or after a load of no bytes, is in canonical form. -/
theorem Memory.nil_wf : Memory.wf g [] := ⟨List.Pairwise.nil, by simp⟩

/-! ## Through the state -/

variable (s : State) (a k : Nat) (bytes : List Byte)

/-- A block store leaves every byte outside the block alone. -/
theorem State.byteAt_storeBytes_other (c : Nat) (h : c < a ∨ a + bytes.length ≤ c) :
    (s.storeBytes a bytes).byteAt c = s.byteAt c :=
  Memory.peek_store_other s.cfg.glyphs s.mem a bytes c h

/-- A block store puts byte `k` of the block at `a + k`. -/
theorem State.byteAt_storeBytes_same (hm : Memory.wf s.cfg.glyphs s.mem) (ha : a + bytes.length ≤ Memory.size)
    (hk : k < bytes.length) : (s.storeBytes a bytes).byteAt (a + k) = bytes[k] :=
  Memory.peek_store_same s.cfg.glyphs s.mem a bytes hm ha k hk

/-- A block store keeps the canonical form. -/
theorem State.storeBytes_wf (hm : Memory.wf s.cfg.glyphs s.mem) (ha : a + bytes.length ≤ Memory.size) :
    Memory.wf s.cfg.glyphs (s.storeBytes a bytes).mem :=
  Memory.store_wf s.cfg.glyphs s.mem a bytes hm ha

@[simp] theorem State.bytesAt_length : (s.bytesAt a k).length = k := by simp [State.bytesAt]

theorem State.getElem_bytesAt (n : Nat) (h : k < (s.bytesAt a n).length) :
    (s.bytesAt a n)[k] = s.byteAt (a + k) :=
  Memory.getElem_load s.cfg.glyphs s.mem a n k h

/-! ## The checks of an access -/

/-- R71, R224: an access of `n` bytes from `base` on is out of range exactly when its last byte is above 0xFFF, and the
lowest offending address is then the larger of `base` and 0x1000. -/
theorem firstOutside_eq (base n : Nat) :
    firstOutside base n = if n = 0 ∨ base + n ≤ Memory.size then none else some (max base Memory.size) := by
  induction n with
  | zero => simp [firstOutside, effectiveAddresses]
  | succ n ih =>
    unfold firstOutside effectiveAddresses at ih ⊢
    rw [List.range_succ, List.map_append, List.find?_append, ih]
    simp only [List.map_cons, List.map_nil, List.find?_cons, List.find?_nil, Memory.outside, Memory.size]
    by_cases h : n = 0 ∨ base + n ≤ 4096
    · by_cases h' : base + (n + 1) ≤ 4096
      · have : ¬ 4096 ≤ base + n := by omega
        simp [h, h', this]
      · have h2 : 4096 ≤ base + n := by omega
        have : max base 4096 = base + n := by omega
        simp [h, h', h2, this]
    · have h' : ¬ (base + (n + 1) ≤ 4096) := by omega
      simp [h, h']

/-- R71, R224: an access of `n` bytes from `base` on reaches the glyph table exactly when its first byte is in it, and
that byte is then the lowest one. -/
theorem firstInGlyphs_eq (base n : Nat) :
    firstInGlyphs base n = if n = 0 ∨ Memory.glyphEnd ≤ base then none else some base := by
  cases n with
  | zero => simp [firstInGlyphs, effectiveAddresses]
  | succ n =>
    unfold firstInGlyphs effectiveAddresses
    by_cases h : Memory.glyphEnd ≤ base
    · rw [if_pos (.inr h), List.find?_eq_none]
      intro a ha
      obtain ⟨k, _, rfl⟩ := List.mem_map.1 ha
      simp only [Memory.inGlyphs, decide_eq_true_eq]
      omega
    · rw [List.range_succ_eq_map]
      have h' : base < Memory.glyphEnd := by omega
      simp [Memory.inGlyphs, h']

end Sys2Proof.Machine
end

