-- ==== Sys2Proof/Laws/State.lean ====
section
/-! SUPPORT. For every update of the state, what each field is after it. -/

namespace Sys2Proof.Machine

variable (s : State) (x y : Nibble) (b : Byte) (a : Word) (c : Bool) (r : FaultRecord) (k n : Nat) (bytes : List Byte)

/-! writeV -/

@[simp] theorem State.writeV_i : (s.writeV x b).i = s.i := rfl
@[simp] theorem State.writeV_pc : (s.writeV x b).pc = s.pc := rfl
@[simp] theorem State.writeV_sp : (s.writeV x b).sp = s.sp := rfl
@[simp] theorem State.writeV_stack : (s.writeV x b).stack = s.stack := rfl
@[simp] theorem State.writeV_dt : (s.writeV x b).dt = s.dt := rfl
@[simp] theorem State.writeV_st : (s.writeV x b).st = s.st := rfl
@[simp] theorem State.writeV_mem : (s.writeV x b).mem = s.mem := rfl
@[simp] theorem State.writeV_fb : (s.writeV x b).fb = s.fb := rfl
@[simp] theorem State.writeV_key : (s.writeV x b).key = s.key := rfl
@[simp] theorem State.writeV_released : (s.writeV x b).released = s.released := rfl
@[simp] theorem State.writeV_lastDraw : (s.writeV x b).lastDraw = s.lastDraw := rfl
@[simp] theorem State.writeV_beep : (s.writeV x b).beep = s.beep := rfl
@[simp] theorem State.writeV_loaded : (s.writeV x b).loaded = s.loaded := rfl
@[simp] theorem State.writeV_halted : (s.writeV x b).halted = s.halted := rfl
@[simp] theorem State.writeV_fault : (s.writeV x b).fault = s.fault := rfl
@[simp] theorem State.writeV_soundEnabled : (s.writeV x b).soundEnabled = s.soundEnabled := rfl
@[simp] theorem State.writeV_cfg : (s.writeV x b).cfg = s.cfg := rfl
@[simp] theorem State.writeV_program : (s.writeV x b).program = s.program := rfl
@[simp] theorem State.writeV_now : (s.writeV x b).now = s.now := rfl
@[simp] theorem State.writeV_samples : (s.writeV x b).samples = s.samples := rfl
@[simp] theorem State.writeV_draws : (s.writeV x b).draws = s.draws := rfl
@[simp] theorem State.writeV_readSlot : (s.writeV x b).readSlot k = s.readSlot k := rfl
@[simp] theorem State.writeV_byteAt : (s.writeV x b).byteAt k = s.byteAt k := rfl

/-! setI -/

@[simp] theorem State.setI_v : (s.setI a).v = s.v := rfl
@[simp] theorem State.setI_i : (s.setI a).i = a := rfl
@[simp] theorem State.setI_pc : (s.setI a).pc = s.pc := rfl
@[simp] theorem State.setI_sp : (s.setI a).sp = s.sp := rfl
@[simp] theorem State.setI_stack : (s.setI a).stack = s.stack := rfl
@[simp] theorem State.setI_dt : (s.setI a).dt = s.dt := rfl
@[simp] theorem State.setI_st : (s.setI a).st = s.st := rfl
@[simp] theorem State.setI_mem : (s.setI a).mem = s.mem := rfl
@[simp] theorem State.setI_fb : (s.setI a).fb = s.fb := rfl
@[simp] theorem State.setI_key : (s.setI a).key = s.key := rfl
@[simp] theorem State.setI_released : (s.setI a).released = s.released := rfl
@[simp] theorem State.setI_lastDraw : (s.setI a).lastDraw = s.lastDraw := rfl
@[simp] theorem State.setI_beep : (s.setI a).beep = s.beep := rfl
@[simp] theorem State.setI_loaded : (s.setI a).loaded = s.loaded := rfl
@[simp] theorem State.setI_halted : (s.setI a).halted = s.halted := rfl
@[simp] theorem State.setI_fault : (s.setI a).fault = s.fault := rfl
@[simp] theorem State.setI_soundEnabled : (s.setI a).soundEnabled = s.soundEnabled := rfl
@[simp] theorem State.setI_cfg : (s.setI a).cfg = s.cfg := rfl
@[simp] theorem State.setI_program : (s.setI a).program = s.program := rfl
@[simp] theorem State.setI_now : (s.setI a).now = s.now := rfl
@[simp] theorem State.setI_samples : (s.setI a).samples = s.samples := rfl
@[simp] theorem State.setI_draws : (s.setI a).draws = s.draws := rfl
@[simp] theorem State.setI_readV : (s.setI a).readV y = s.readV y := rfl
@[simp] theorem State.setI_readSlot : (s.setI a).readSlot k = s.readSlot k := rfl
@[simp] theorem State.setI_byteAt : (s.setI a).byteAt k = s.byteAt k := rfl

/-! setPc -/

@[simp] theorem State.setPc_v : (s.setPc a).v = s.v := rfl
@[simp] theorem State.setPc_i : (s.setPc a).i = s.i := rfl
@[simp] theorem State.setPc_pc : (s.setPc a).pc = a := rfl
@[simp] theorem State.setPc_sp : (s.setPc a).sp = s.sp := rfl
@[simp] theorem State.setPc_stack : (s.setPc a).stack = s.stack := rfl
@[simp] theorem State.setPc_dt : (s.setPc a).dt = s.dt := rfl
@[simp] theorem State.setPc_st : (s.setPc a).st = s.st := rfl
@[simp] theorem State.setPc_mem : (s.setPc a).mem = s.mem := rfl
@[simp] theorem State.setPc_fb : (s.setPc a).fb = s.fb := rfl
@[simp] theorem State.setPc_key : (s.setPc a).key = s.key := rfl
@[simp] theorem State.setPc_released : (s.setPc a).released = s.released := rfl
@[simp] theorem State.setPc_lastDraw : (s.setPc a).lastDraw = s.lastDraw := rfl
@[simp] theorem State.setPc_beep : (s.setPc a).beep = s.beep := rfl
@[simp] theorem State.setPc_loaded : (s.setPc a).loaded = s.loaded := rfl
@[simp] theorem State.setPc_halted : (s.setPc a).halted = s.halted := rfl
@[simp] theorem State.setPc_fault : (s.setPc a).fault = s.fault := rfl
@[simp] theorem State.setPc_soundEnabled : (s.setPc a).soundEnabled = s.soundEnabled := rfl
@[simp] theorem State.setPc_cfg : (s.setPc a).cfg = s.cfg := rfl
@[simp] theorem State.setPc_program : (s.setPc a).program = s.program := rfl
@[simp] theorem State.setPc_now : (s.setPc a).now = s.now := rfl
@[simp] theorem State.setPc_samples : (s.setPc a).samples = s.samples := rfl
@[simp] theorem State.setPc_draws : (s.setPc a).draws = s.draws := rfl
@[simp] theorem State.setPc_readV : (s.setPc a).readV y = s.readV y := rfl
@[simp] theorem State.setPc_readSlot : (s.setPc a).readSlot k = s.readSlot k := rfl
@[simp] theorem State.setPc_byteAt : (s.setPc a).byteAt k = s.byteAt k := rfl

/-! advance -/

@[simp] theorem State.advance_v : s.advance.v = s.v := rfl
@[simp] theorem State.advance_i : s.advance.i = s.i := rfl
@[simp] theorem State.advance_pc : s.advance.pc = s.pc + 2 := rfl
@[simp] theorem State.advance_sp : s.advance.sp = s.sp := rfl
@[simp] theorem State.advance_stack : s.advance.stack = s.stack := rfl
@[simp] theorem State.advance_dt : s.advance.dt = s.dt := rfl
@[simp] theorem State.advance_st : s.advance.st = s.st := rfl
@[simp] theorem State.advance_mem : s.advance.mem = s.mem := rfl
@[simp] theorem State.advance_fb : s.advance.fb = s.fb := rfl
@[simp] theorem State.advance_key : s.advance.key = s.key := rfl
@[simp] theorem State.advance_released : s.advance.released = s.released := rfl
@[simp] theorem State.advance_lastDraw : s.advance.lastDraw = s.lastDraw := rfl
@[simp] theorem State.advance_beep : s.advance.beep = s.beep := rfl
@[simp] theorem State.advance_loaded : s.advance.loaded = s.loaded := rfl
@[simp] theorem State.advance_halted : s.advance.halted = s.halted := rfl
@[simp] theorem State.advance_fault : s.advance.fault = s.fault := rfl
@[simp] theorem State.advance_soundEnabled : s.advance.soundEnabled = s.soundEnabled := rfl
@[simp] theorem State.advance_cfg : s.advance.cfg = s.cfg := rfl
@[simp] theorem State.advance_program : s.advance.program = s.program := rfl
@[simp] theorem State.advance_now : s.advance.now = s.now := rfl
@[simp] theorem State.advance_samples : s.advance.samples = s.samples := rfl
@[simp] theorem State.advance_draws : s.advance.draws = s.draws := rfl
@[simp] theorem State.advance_readV : s.advance.readV y = s.readV y := rfl
@[simp] theorem State.advance_readSlot : s.advance.readSlot k = s.readSlot k := rfl
@[simp] theorem State.advance_byteAt : s.advance.byteAt k = s.byteAt k := rfl

/-! skipIf -/

@[simp] theorem State.skipIf_v : (s.skipIf c).v = s.v := rfl
@[simp] theorem State.skipIf_i : (s.skipIf c).i = s.i := rfl
@[simp] theorem State.skipIf_pc : (s.skipIf c).pc = if c then s.pc + 4 else s.pc + 2 := rfl
@[simp] theorem State.skipIf_sp : (s.skipIf c).sp = s.sp := rfl
@[simp] theorem State.skipIf_stack : (s.skipIf c).stack = s.stack := rfl
@[simp] theorem State.skipIf_dt : (s.skipIf c).dt = s.dt := rfl
@[simp] theorem State.skipIf_st : (s.skipIf c).st = s.st := rfl
@[simp] theorem State.skipIf_mem : (s.skipIf c).mem = s.mem := rfl
@[simp] theorem State.skipIf_fb : (s.skipIf c).fb = s.fb := rfl
@[simp] theorem State.skipIf_key : (s.skipIf c).key = s.key := rfl
@[simp] theorem State.skipIf_released : (s.skipIf c).released = s.released := rfl
@[simp] theorem State.skipIf_lastDraw : (s.skipIf c).lastDraw = s.lastDraw := rfl
@[simp] theorem State.skipIf_beep : (s.skipIf c).beep = s.beep := rfl
@[simp] theorem State.skipIf_loaded : (s.skipIf c).loaded = s.loaded := rfl
@[simp] theorem State.skipIf_halted : (s.skipIf c).halted = s.halted := rfl
@[simp] theorem State.skipIf_fault : (s.skipIf c).fault = s.fault := rfl
@[simp] theorem State.skipIf_soundEnabled : (s.skipIf c).soundEnabled = s.soundEnabled := rfl
@[simp] theorem State.skipIf_cfg : (s.skipIf c).cfg = s.cfg := rfl
@[simp] theorem State.skipIf_program : (s.skipIf c).program = s.program := rfl
@[simp] theorem State.skipIf_now : (s.skipIf c).now = s.now := rfl
@[simp] theorem State.skipIf_samples : (s.skipIf c).samples = s.samples := rfl
@[simp] theorem State.skipIf_draws : (s.skipIf c).draws = s.draws := rfl
@[simp] theorem State.skipIf_readV : (s.skipIf c).readV y = s.readV y := rfl
@[simp] theorem State.skipIf_readSlot : (s.skipIf c).readSlot k = s.readSlot k := rfl
@[simp] theorem State.skipIf_byteAt : (s.skipIf c).byteAt k = s.byteAt k := rfl

/-! push -/

@[simp] theorem State.push_v : (s.push a).v = s.v := rfl
@[simp] theorem State.push_i : (s.push a).i = s.i := rfl
@[simp] theorem State.push_pc : (s.push a).pc = s.pc := rfl
@[simp] theorem State.push_sp : (s.push a).sp = (s.sp + 1) % 16 := rfl
@[simp] theorem State.push_dt : (s.push a).dt = s.dt := rfl
@[simp] theorem State.push_st : (s.push a).st = s.st := rfl
@[simp] theorem State.push_mem : (s.push a).mem = s.mem := rfl
@[simp] theorem State.push_fb : (s.push a).fb = s.fb := rfl
@[simp] theorem State.push_key : (s.push a).key = s.key := rfl
@[simp] theorem State.push_released : (s.push a).released = s.released := rfl
@[simp] theorem State.push_lastDraw : (s.push a).lastDraw = s.lastDraw := rfl
@[simp] theorem State.push_beep : (s.push a).beep = s.beep := rfl
@[simp] theorem State.push_loaded : (s.push a).loaded = s.loaded := rfl
@[simp] theorem State.push_halted : (s.push a).halted = s.halted := rfl
@[simp] theorem State.push_fault : (s.push a).fault = s.fault := rfl
@[simp] theorem State.push_soundEnabled : (s.push a).soundEnabled = s.soundEnabled := rfl
@[simp] theorem State.push_cfg : (s.push a).cfg = s.cfg := rfl
@[simp] theorem State.push_program : (s.push a).program = s.program := rfl
@[simp] theorem State.push_now : (s.push a).now = s.now := rfl
@[simp] theorem State.push_samples : (s.push a).samples = s.samples := rfl
@[simp] theorem State.push_draws : (s.push a).draws = s.draws := rfl
@[simp] theorem State.push_readV : (s.push a).readV y = s.readV y := rfl
@[simp] theorem State.push_byteAt : (s.push a).byteAt k = s.byteAt k := rfl

/-! pop -/

@[simp] theorem State.pop_v : s.pop.v = s.v := rfl
@[simp] theorem State.pop_i : s.pop.i = s.i := rfl
@[simp] theorem State.pop_pc : s.pop.pc = s.pc := rfl
@[simp] theorem State.pop_sp : s.pop.sp = poppedSp s.sp := rfl
@[simp] theorem State.pop_stack : s.pop.stack = s.stack := rfl
@[simp] theorem State.pop_dt : s.pop.dt = s.dt := rfl
@[simp] theorem State.pop_st : s.pop.st = s.st := rfl
@[simp] theorem State.pop_mem : s.pop.mem = s.mem := rfl
@[simp] theorem State.pop_fb : s.pop.fb = s.fb := rfl
@[simp] theorem State.pop_key : s.pop.key = s.key := rfl
@[simp] theorem State.pop_released : s.pop.released = s.released := rfl
@[simp] theorem State.pop_lastDraw : s.pop.lastDraw = s.lastDraw := rfl
@[simp] theorem State.pop_beep : s.pop.beep = s.beep := rfl
@[simp] theorem State.pop_loaded : s.pop.loaded = s.loaded := rfl
@[simp] theorem State.pop_halted : s.pop.halted = s.halted := rfl
@[simp] theorem State.pop_fault : s.pop.fault = s.fault := rfl
@[simp] theorem State.pop_soundEnabled : s.pop.soundEnabled = s.soundEnabled := rfl
@[simp] theorem State.pop_cfg : s.pop.cfg = s.cfg := rfl
@[simp] theorem State.pop_program : s.pop.program = s.program := rfl
@[simp] theorem State.pop_now : s.pop.now = s.now := rfl
@[simp] theorem State.pop_samples : s.pop.samples = s.samples := rfl
@[simp] theorem State.pop_draws : s.pop.draws = s.draws := rfl
@[simp] theorem State.pop_readV : s.pop.readV y = s.readV y := rfl
@[simp] theorem State.pop_readSlot : s.pop.readSlot k = s.readSlot k := rfl
@[simp] theorem State.pop_byteAt : s.pop.byteAt k = s.byteAt k := rfl

/-! writeDt -/

@[simp] theorem State.writeDt_v : (s.writeDt b).v = s.v := rfl
@[simp] theorem State.writeDt_i : (s.writeDt b).i = s.i := rfl
@[simp] theorem State.writeDt_pc : (s.writeDt b).pc = s.pc := rfl
@[simp] theorem State.writeDt_sp : (s.writeDt b).sp = s.sp := rfl
@[simp] theorem State.writeDt_stack : (s.writeDt b).stack = s.stack := rfl
@[simp] theorem State.writeDt_dt : (s.writeDt b).dt = ⟨b, s.now⟩ := rfl
@[simp] theorem State.writeDt_st : (s.writeDt b).st = s.st := rfl
@[simp] theorem State.writeDt_mem : (s.writeDt b).mem = s.mem := rfl
@[simp] theorem State.writeDt_fb : (s.writeDt b).fb = s.fb := rfl
@[simp] theorem State.writeDt_key : (s.writeDt b).key = s.key := rfl
@[simp] theorem State.writeDt_released : (s.writeDt b).released = s.released := rfl
@[simp] theorem State.writeDt_lastDraw : (s.writeDt b).lastDraw = s.lastDraw := rfl
@[simp] theorem State.writeDt_beep : (s.writeDt b).beep = s.beep := rfl
@[simp] theorem State.writeDt_loaded : (s.writeDt b).loaded = s.loaded := rfl
@[simp] theorem State.writeDt_halted : (s.writeDt b).halted = s.halted := rfl
@[simp] theorem State.writeDt_fault : (s.writeDt b).fault = s.fault := rfl
@[simp] theorem State.writeDt_soundEnabled : (s.writeDt b).soundEnabled = s.soundEnabled := rfl
@[simp] theorem State.writeDt_cfg : (s.writeDt b).cfg = s.cfg := rfl
@[simp] theorem State.writeDt_program : (s.writeDt b).program = s.program := rfl
@[simp] theorem State.writeDt_now : (s.writeDt b).now = s.now := rfl
@[simp] theorem State.writeDt_samples : (s.writeDt b).samples = s.samples := rfl
@[simp] theorem State.writeDt_draws : (s.writeDt b).draws = s.draws := rfl
@[simp] theorem State.writeDt_readV : (s.writeDt b).readV y = s.readV y := rfl
@[simp] theorem State.writeDt_readSlot : (s.writeDt b).readSlot k = s.readSlot k := rfl
@[simp] theorem State.writeDt_byteAt : (s.writeDt b).byteAt k = s.byteAt k := rfl

/-! writeSt -/

@[simp] theorem State.writeSt_v : (s.writeSt b).v = s.v := rfl
@[simp] theorem State.writeSt_i : (s.writeSt b).i = s.i := rfl
@[simp] theorem State.writeSt_pc : (s.writeSt b).pc = s.pc := rfl
@[simp] theorem State.writeSt_sp : (s.writeSt b).sp = s.sp := rfl
@[simp] theorem State.writeSt_stack : (s.writeSt b).stack = s.stack := rfl
@[simp] theorem State.writeSt_dt : (s.writeSt b).dt = s.dt := rfl
@[simp] theorem State.writeSt_st : (s.writeSt b).st = ⟨b, s.now⟩ := rfl
@[simp] theorem State.writeSt_mem : (s.writeSt b).mem = s.mem := rfl
@[simp] theorem State.writeSt_fb : (s.writeSt b).fb = s.fb := rfl
@[simp] theorem State.writeSt_key : (s.writeSt b).key = s.key := rfl
@[simp] theorem State.writeSt_released : (s.writeSt b).released = s.released := rfl
@[simp] theorem State.writeSt_lastDraw : (s.writeSt b).lastDraw = s.lastDraw := rfl
@[simp] theorem State.writeSt_beep : (s.writeSt b).beep = s.beep := rfl
@[simp] theorem State.writeSt_loaded : (s.writeSt b).loaded = s.loaded := rfl
@[simp] theorem State.writeSt_halted : (s.writeSt b).halted = s.halted := rfl
@[simp] theorem State.writeSt_fault : (s.writeSt b).fault = s.fault := rfl
@[simp] theorem State.writeSt_soundEnabled : (s.writeSt b).soundEnabled = s.soundEnabled := rfl
@[simp] theorem State.writeSt_cfg : (s.writeSt b).cfg = s.cfg := rfl
@[simp] theorem State.writeSt_program : (s.writeSt b).program = s.program := rfl
@[simp] theorem State.writeSt_now : (s.writeSt b).now = s.now := rfl
@[simp] theorem State.writeSt_samples : (s.writeSt b).samples = s.samples := rfl
@[simp] theorem State.writeSt_draws : (s.writeSt b).draws = s.draws := rfl
@[simp] theorem State.writeSt_readV : (s.writeSt b).readV y = s.readV y := rfl
@[simp] theorem State.writeSt_readSlot : (s.writeSt b).readSlot k = s.readSlot k := rfl
@[simp] theorem State.writeSt_byteAt : (s.writeSt b).byteAt k = s.byteAt k := rfl

/-! clearReleased -/

@[simp] theorem State.clearReleased_v : s.clearReleased.v = s.v := rfl
@[simp] theorem State.clearReleased_i : s.clearReleased.i = s.i := rfl
@[simp] theorem State.clearReleased_pc : s.clearReleased.pc = s.pc := rfl
@[simp] theorem State.clearReleased_sp : s.clearReleased.sp = s.sp := rfl
@[simp] theorem State.clearReleased_stack : s.clearReleased.stack = s.stack := rfl
@[simp] theorem State.clearReleased_dt : s.clearReleased.dt = s.dt := rfl
@[simp] theorem State.clearReleased_st : s.clearReleased.st = s.st := rfl
@[simp] theorem State.clearReleased_mem : s.clearReleased.mem = s.mem := rfl
@[simp] theorem State.clearReleased_fb : s.clearReleased.fb = s.fb := rfl
@[simp] theorem State.clearReleased_key : s.clearReleased.key = s.key := rfl
@[simp] theorem State.clearReleased_released : s.clearReleased.released = none := rfl
@[simp] theorem State.clearReleased_lastDraw : s.clearReleased.lastDraw = s.lastDraw := rfl
@[simp] theorem State.clearReleased_beep : s.clearReleased.beep = s.beep := rfl
@[simp] theorem State.clearReleased_loaded : s.clearReleased.loaded = s.loaded := rfl
@[simp] theorem State.clearReleased_halted : s.clearReleased.halted = s.halted := rfl
@[simp] theorem State.clearReleased_fault : s.clearReleased.fault = s.fault := rfl
@[simp] theorem State.clearReleased_soundEnabled : s.clearReleased.soundEnabled = s.soundEnabled := rfl
@[simp] theorem State.clearReleased_cfg : s.clearReleased.cfg = s.cfg := rfl
@[simp] theorem State.clearReleased_program : s.clearReleased.program = s.program := rfl
@[simp] theorem State.clearReleased_now : s.clearReleased.now = s.now := rfl
@[simp] theorem State.clearReleased_samples : s.clearReleased.samples = s.samples := rfl
@[simp] theorem State.clearReleased_draws : s.clearReleased.draws = s.draws := rfl
@[simp] theorem State.clearReleased_readV : s.clearReleased.readV y = s.readV y := rfl
@[simp] theorem State.clearReleased_readSlot : s.clearReleased.readSlot k = s.readSlot k := rfl
@[simp] theorem State.clearReleased_byteAt : s.clearReleased.byteAt k = s.byteAt k := rfl

/-! queried -/

@[simp] theorem State.queried_v : s.queried.v = s.v := by unfold State.queried; split <;> rfl
@[simp] theorem State.queried_i : s.queried.i = s.i := by unfold State.queried; split <;> rfl
@[simp] theorem State.queried_pc : s.queried.pc = s.pc := by unfold State.queried; split <;> rfl
@[simp] theorem State.queried_sp : s.queried.sp = s.sp := by unfold State.queried; split <;> rfl
@[simp] theorem State.queried_stack : s.queried.stack = s.stack := by unfold State.queried; split <;> rfl
@[simp] theorem State.queried_dt : s.queried.dt = s.dt := by unfold State.queried; split <;> rfl
@[simp] theorem State.queried_st : s.queried.st = s.st := by unfold State.queried; split <;> rfl
@[simp] theorem State.queried_mem : s.queried.mem = s.mem := by unfold State.queried; split <;> rfl
@[simp] theorem State.queried_fb : s.queried.fb = s.fb := by unfold State.queried; split <;> rfl
@[simp] theorem State.queried_key : s.queried.key = s.key := by unfold State.queried; split <;> rfl
@[simp] theorem State.queried_released : s.queried.released = if s.cfg.keyqueryConsumesRelease then none else s.released := by unfold State.queried; split <;> rfl
@[simp] theorem State.queried_lastDraw : s.queried.lastDraw = s.lastDraw := by unfold State.queried; split <;> rfl
@[simp] theorem State.queried_beep : s.queried.beep = s.beep := by unfold State.queried; split <;> rfl
@[simp] theorem State.queried_loaded : s.queried.loaded = s.loaded := by unfold State.queried; split <;> rfl
@[simp] theorem State.queried_halted : s.queried.halted = s.halted := by unfold State.queried; split <;> rfl
@[simp] theorem State.queried_fault : s.queried.fault = s.fault := by unfold State.queried; split <;> rfl
@[simp] theorem State.queried_soundEnabled : s.queried.soundEnabled = s.soundEnabled := by unfold State.queried; split <;> rfl
@[simp] theorem State.queried_cfg : s.queried.cfg = s.cfg := by unfold State.queried; split <;> rfl
@[simp] theorem State.queried_program : s.queried.program = s.program := by unfold State.queried; split <;> rfl
@[simp] theorem State.queried_now : s.queried.now = s.now := by unfold State.queried; split <;> rfl
@[simp] theorem State.queried_samples : s.queried.samples = s.samples := by unfold State.queried; split <;> rfl
@[simp] theorem State.queried_draws : s.queried.draws = s.draws := by unfold State.queried; split <;> rfl
@[simp] theorem State.queried_readV : s.queried.readV y = s.readV y := by unfold State.queried; split <;> rfl
@[simp] theorem State.queried_readSlot : s.queried.readSlot k = s.readSlot k := by unfold State.queried; split <;> rfl
@[simp] theorem State.queried_byteAt : s.queried.byteAt k = s.byteAt k := by unfold State.queried; split <;> rfl

/-! raise -/

@[simp] theorem State.raise_v : (s.raise r).v = s.v := rfl
@[simp] theorem State.raise_i : (s.raise r).i = s.i := rfl
@[simp] theorem State.raise_pc : (s.raise r).pc = s.pc := rfl
@[simp] theorem State.raise_sp : (s.raise r).sp = s.sp := rfl
@[simp] theorem State.raise_stack : (s.raise r).stack = s.stack := rfl
@[simp] theorem State.raise_dt : (s.raise r).dt = s.dt := rfl
@[simp] theorem State.raise_st : (s.raise r).st = s.st := rfl
@[simp] theorem State.raise_mem : (s.raise r).mem = s.mem := rfl
@[simp] theorem State.raise_fb : (s.raise r).fb = s.fb := rfl
@[simp] theorem State.raise_key : (s.raise r).key = s.key := rfl
@[simp] theorem State.raise_released : (s.raise r).released = s.released := rfl
@[simp] theorem State.raise_lastDraw : (s.raise r).lastDraw = s.lastDraw := rfl
@[simp] theorem State.raise_beep : (s.raise r).beep = s.beep := rfl
@[simp] theorem State.raise_loaded : (s.raise r).loaded = s.loaded := rfl
@[simp] theorem State.raise_halted : (s.raise r).halted = s.halted := rfl
@[simp] theorem State.raise_fault : (s.raise r).fault = some r := rfl
@[simp] theorem State.raise_soundEnabled : (s.raise r).soundEnabled = s.soundEnabled := rfl
@[simp] theorem State.raise_cfg : (s.raise r).cfg = s.cfg := rfl
@[simp] theorem State.raise_program : (s.raise r).program = s.program := rfl
@[simp] theorem State.raise_now : (s.raise r).now = s.now := rfl
@[simp] theorem State.raise_samples : (s.raise r).samples = s.samples := rfl
@[simp] theorem State.raise_draws : (s.raise r).draws = s.draws := rfl
@[simp] theorem State.raise_readV : (s.raise r).readV y = s.readV y := rfl
@[simp] theorem State.raise_readSlot : (s.raise r).readSlot k = s.readSlot k := rfl
@[simp] theorem State.raise_byteAt : (s.raise r).byteAt k = s.byteAt k := rfl

/-! sampleClock -/

@[simp] theorem State.sampleClock_v : s.sampleClock.v = s.v := rfl
@[simp] theorem State.sampleClock_i : s.sampleClock.i = s.i := rfl
@[simp] theorem State.sampleClock_pc : s.sampleClock.pc = s.pc := rfl
@[simp] theorem State.sampleClock_sp : s.sampleClock.sp = s.sp := rfl
@[simp] theorem State.sampleClock_stack : s.sampleClock.stack = s.stack := rfl
@[simp] theorem State.sampleClock_dt : s.sampleClock.dt = s.dt := rfl
@[simp] theorem State.sampleClock_st : s.sampleClock.st = s.st := rfl
@[simp] theorem State.sampleClock_mem : s.sampleClock.mem = s.mem := rfl
@[simp] theorem State.sampleClock_fb : s.sampleClock.fb = s.fb := rfl
@[simp] theorem State.sampleClock_key : s.sampleClock.key = s.key := rfl
@[simp] theorem State.sampleClock_released : s.sampleClock.released = s.released := rfl
@[simp] theorem State.sampleClock_lastDraw : s.sampleClock.lastDraw = s.lastDraw := rfl
@[simp] theorem State.sampleClock_beep : s.sampleClock.beep = s.beep := rfl
@[simp] theorem State.sampleClock_loaded : s.sampleClock.loaded = s.loaded := rfl
@[simp] theorem State.sampleClock_halted : s.sampleClock.halted = s.halted := rfl
@[simp] theorem State.sampleClock_fault : s.sampleClock.fault = s.fault := rfl
@[simp] theorem State.sampleClock_soundEnabled : s.sampleClock.soundEnabled = s.soundEnabled := rfl
@[simp] theorem State.sampleClock_cfg : s.sampleClock.cfg = s.cfg := rfl
@[simp] theorem State.sampleClock_program : s.sampleClock.program = s.program := rfl
@[simp] theorem State.sampleClock_samples : s.sampleClock.samples = s.samples + 1 := rfl
@[simp] theorem State.sampleClock_draws : s.sampleClock.draws = s.draws := rfl
@[simp] theorem State.sampleClock_readV : s.sampleClock.readV y = s.readV y := rfl
@[simp] theorem State.sampleClock_readSlot : s.sampleClock.readSlot k = s.readSlot k := rfl
@[simp] theorem State.sampleClock_byteAt : s.sampleClock.byteAt k = s.byteAt k := rfl

/-! reevaluateSound -/

@[simp] theorem State.reevaluateSound_v : s.reevaluateSound.v = s.v := rfl
@[simp] theorem State.reevaluateSound_i : s.reevaluateSound.i = s.i := rfl
@[simp] theorem State.reevaluateSound_pc : s.reevaluateSound.pc = s.pc := rfl
@[simp] theorem State.reevaluateSound_sp : s.reevaluateSound.sp = s.sp := rfl
@[simp] theorem State.reevaluateSound_stack : s.reevaluateSound.stack = s.stack := rfl
@[simp] theorem State.reevaluateSound_dt : s.reevaluateSound.dt = s.dt := rfl
@[simp] theorem State.reevaluateSound_st : s.reevaluateSound.st = s.st := rfl
@[simp] theorem State.reevaluateSound_mem : s.reevaluateSound.mem = s.mem := rfl
@[simp] theorem State.reevaluateSound_fb : s.reevaluateSound.fb = s.fb := rfl
@[simp] theorem State.reevaluateSound_key : s.reevaluateSound.key = s.key := rfl
@[simp] theorem State.reevaluateSound_released : s.reevaluateSound.released = s.released := rfl
@[simp] theorem State.reevaluateSound_lastDraw : s.reevaluateSound.lastDraw = s.lastDraw := rfl
@[simp] theorem State.reevaluateSound_beep : s.reevaluateSound.beep = s.soundOn := rfl
@[simp] theorem State.reevaluateSound_loaded : s.reevaluateSound.loaded = s.loaded := rfl
@[simp] theorem State.reevaluateSound_halted : s.reevaluateSound.halted = s.halted := rfl
@[simp] theorem State.reevaluateSound_fault : s.reevaluateSound.fault = s.fault := rfl
@[simp] theorem State.reevaluateSound_soundEnabled : s.reevaluateSound.soundEnabled = s.soundEnabled := rfl
@[simp] theorem State.reevaluateSound_cfg : s.reevaluateSound.cfg = s.cfg := rfl
@[simp] theorem State.reevaluateSound_program : s.reevaluateSound.program = s.program := rfl
@[simp] theorem State.reevaluateSound_now : s.reevaluateSound.now = s.now := rfl
@[simp] theorem State.reevaluateSound_samples : s.reevaluateSound.samples = s.samples := rfl
@[simp] theorem State.reevaluateSound_draws : s.reevaluateSound.draws = s.draws := rfl
@[simp] theorem State.reevaluateSound_readV : s.reevaluateSound.readV y = s.readV y := rfl
@[simp] theorem State.reevaluateSound_readSlot : s.reevaluateSound.readSlot k = s.readSlot k := rfl
@[simp] theorem State.reevaluateSound_byteAt : s.reevaluateSound.byteAt k = s.byteAt k := rfl

/-! drawn -/

@[simp] theorem State.drawn_v : s.drawn.v = s.v := rfl
@[simp] theorem State.drawn_i : s.drawn.i = s.i := rfl
@[simp] theorem State.drawn_pc : s.drawn.pc = s.pc := rfl
@[simp] theorem State.drawn_sp : s.drawn.sp = s.sp := rfl
@[simp] theorem State.drawn_stack : s.drawn.stack = s.stack := rfl
@[simp] theorem State.drawn_dt : s.drawn.dt = s.dt := rfl
@[simp] theorem State.drawn_st : s.drawn.st = s.st := rfl
@[simp] theorem State.drawn_mem : s.drawn.mem = s.mem := rfl
@[simp] theorem State.drawn_fb : s.drawn.fb = s.fb := rfl
@[simp] theorem State.drawn_key : s.drawn.key = s.key := rfl
@[simp] theorem State.drawn_released : s.drawn.released = s.released := rfl
@[simp] theorem State.drawn_lastDraw : s.drawn.lastDraw = s.lastDraw := rfl
@[simp] theorem State.drawn_beep : s.drawn.beep = s.beep := rfl
@[simp] theorem State.drawn_loaded : s.drawn.loaded = s.loaded := rfl
@[simp] theorem State.drawn_halted : s.drawn.halted = s.halted := rfl
@[simp] theorem State.drawn_fault : s.drawn.fault = s.fault := rfl
@[simp] theorem State.drawn_soundEnabled : s.drawn.soundEnabled = s.soundEnabled := rfl
@[simp] theorem State.drawn_cfg : s.drawn.cfg = s.cfg := rfl
@[simp] theorem State.drawn_program : s.drawn.program = s.program := rfl
@[simp] theorem State.drawn_now : s.drawn.now = s.now := rfl
@[simp] theorem State.drawn_samples : s.drawn.samples = s.samples := rfl
@[simp] theorem State.drawn_draws : s.drawn.draws = s.draws + 1 := rfl
@[simp] theorem State.drawn_readV : s.drawn.readV y = s.readV y := rfl
@[simp] theorem State.drawn_readSlot : s.drawn.readSlot k = s.readSlot k := rfl
@[simp] theorem State.drawn_byteAt : s.drawn.byteAt k = s.byteAt k := rfl

/-! writeFlag -/

@[simp] theorem State.writeFlag_i : (s.writeFlag c).i = s.i := rfl
@[simp] theorem State.writeFlag_pc : (s.writeFlag c).pc = s.pc := rfl
@[simp] theorem State.writeFlag_sp : (s.writeFlag c).sp = s.sp := rfl
@[simp] theorem State.writeFlag_stack : (s.writeFlag c).stack = s.stack := rfl
@[simp] theorem State.writeFlag_dt : (s.writeFlag c).dt = s.dt := rfl
@[simp] theorem State.writeFlag_st : (s.writeFlag c).st = s.st := rfl
@[simp] theorem State.writeFlag_mem : (s.writeFlag c).mem = s.mem := rfl
@[simp] theorem State.writeFlag_fb : (s.writeFlag c).fb = s.fb := rfl
@[simp] theorem State.writeFlag_key : (s.writeFlag c).key = s.key := rfl
@[simp] theorem State.writeFlag_released : (s.writeFlag c).released = s.released := rfl
@[simp] theorem State.writeFlag_lastDraw : (s.writeFlag c).lastDraw = s.lastDraw := rfl
@[simp] theorem State.writeFlag_beep : (s.writeFlag c).beep = s.beep := rfl
@[simp] theorem State.writeFlag_loaded : (s.writeFlag c).loaded = s.loaded := rfl
@[simp] theorem State.writeFlag_halted : (s.writeFlag c).halted = s.halted := rfl
@[simp] theorem State.writeFlag_fault : (s.writeFlag c).fault = s.fault := rfl
@[simp] theorem State.writeFlag_soundEnabled : (s.writeFlag c).soundEnabled = s.soundEnabled := rfl
@[simp] theorem State.writeFlag_cfg : (s.writeFlag c).cfg = s.cfg := rfl
@[simp] theorem State.writeFlag_program : (s.writeFlag c).program = s.program := rfl
@[simp] theorem State.writeFlag_now : (s.writeFlag c).now = s.now := rfl
@[simp] theorem State.writeFlag_samples : (s.writeFlag c).samples = s.samples := rfl
@[simp] theorem State.writeFlag_draws : (s.writeFlag c).draws = s.draws := rfl
@[simp] theorem State.writeFlag_readSlot : (s.writeFlag c).readSlot k = s.readSlot k := rfl
@[simp] theorem State.writeFlag_byteAt : (s.writeFlag c).byteAt k = s.byteAt k := rfl

/-! writeResultFlag -/

@[simp] theorem State.writeResultFlag_i : (s.writeResultFlag x b c).i = s.i := rfl
@[simp] theorem State.writeResultFlag_pc : (s.writeResultFlag x b c).pc = s.pc := rfl
@[simp] theorem State.writeResultFlag_sp : (s.writeResultFlag x b c).sp = s.sp := rfl
@[simp] theorem State.writeResultFlag_stack : (s.writeResultFlag x b c).stack = s.stack := rfl
@[simp] theorem State.writeResultFlag_dt : (s.writeResultFlag x b c).dt = s.dt := rfl
@[simp] theorem State.writeResultFlag_st : (s.writeResultFlag x b c).st = s.st := rfl
@[simp] theorem State.writeResultFlag_mem : (s.writeResultFlag x b c).mem = s.mem := rfl
@[simp] theorem State.writeResultFlag_fb : (s.writeResultFlag x b c).fb = s.fb := rfl
@[simp] theorem State.writeResultFlag_key : (s.writeResultFlag x b c).key = s.key := rfl
@[simp] theorem State.writeResultFlag_released : (s.writeResultFlag x b c).released = s.released := rfl
@[simp] theorem State.writeResultFlag_lastDraw : (s.writeResultFlag x b c).lastDraw = s.lastDraw := rfl
@[simp] theorem State.writeResultFlag_beep : (s.writeResultFlag x b c).beep = s.beep := rfl
@[simp] theorem State.writeResultFlag_loaded : (s.writeResultFlag x b c).loaded = s.loaded := rfl
@[simp] theorem State.writeResultFlag_halted : (s.writeResultFlag x b c).halted = s.halted := rfl
@[simp] theorem State.writeResultFlag_fault : (s.writeResultFlag x b c).fault = s.fault := rfl
@[simp] theorem State.writeResultFlag_soundEnabled : (s.writeResultFlag x b c).soundEnabled = s.soundEnabled := rfl
@[simp] theorem State.writeResultFlag_cfg : (s.writeResultFlag x b c).cfg = s.cfg := rfl
@[simp] theorem State.writeResultFlag_program : (s.writeResultFlag x b c).program = s.program := rfl
@[simp] theorem State.writeResultFlag_now : (s.writeResultFlag x b c).now = s.now := rfl
@[simp] theorem State.writeResultFlag_samples : (s.writeResultFlag x b c).samples = s.samples := rfl
@[simp] theorem State.writeResultFlag_draws : (s.writeResultFlag x b c).draws = s.draws := rfl
@[simp] theorem State.writeResultFlag_readSlot : (s.writeResultFlag x b c).readSlot k = s.readSlot k := rfl
@[simp] theorem State.writeResultFlag_byteAt : (s.writeResultFlag x b c).byteAt k = s.byteAt k := rfl

/-! logicFlag -/

@[simp] theorem State.logicFlag_i : s.logicFlag.i = s.i := by unfold State.logicFlag; split <;> rfl
@[simp] theorem State.logicFlag_pc : s.logicFlag.pc = s.pc := by unfold State.logicFlag; split <;> rfl
@[simp] theorem State.logicFlag_sp : s.logicFlag.sp = s.sp := by unfold State.logicFlag; split <;> rfl
@[simp] theorem State.logicFlag_stack : s.logicFlag.stack = s.stack := by unfold State.logicFlag; split <;> rfl
@[simp] theorem State.logicFlag_dt : s.logicFlag.dt = s.dt := by unfold State.logicFlag; split <;> rfl
@[simp] theorem State.logicFlag_st : s.logicFlag.st = s.st := by unfold State.logicFlag; split <;> rfl
@[simp] theorem State.logicFlag_mem : s.logicFlag.mem = s.mem := by unfold State.logicFlag; split <;> rfl
@[simp] theorem State.logicFlag_fb : s.logicFlag.fb = s.fb := by unfold State.logicFlag; split <;> rfl
@[simp] theorem State.logicFlag_key : s.logicFlag.key = s.key := by unfold State.logicFlag; split <;> rfl
@[simp] theorem State.logicFlag_released : s.logicFlag.released = s.released := by unfold State.logicFlag; split <;> rfl
@[simp] theorem State.logicFlag_lastDraw : s.logicFlag.lastDraw = s.lastDraw := by unfold State.logicFlag; split <;> rfl
@[simp] theorem State.logicFlag_beep : s.logicFlag.beep = s.beep := by unfold State.logicFlag; split <;> rfl
@[simp] theorem State.logicFlag_loaded : s.logicFlag.loaded = s.loaded := by unfold State.logicFlag; split <;> rfl
@[simp] theorem State.logicFlag_halted : s.logicFlag.halted = s.halted := by unfold State.logicFlag; split <;> rfl
@[simp] theorem State.logicFlag_fault : s.logicFlag.fault = s.fault := by unfold State.logicFlag; split <;> rfl
@[simp] theorem State.logicFlag_soundEnabled : s.logicFlag.soundEnabled = s.soundEnabled := by unfold State.logicFlag; split <;> rfl
@[simp] theorem State.logicFlag_cfg : s.logicFlag.cfg = s.cfg := by unfold State.logicFlag; split <;> rfl
@[simp] theorem State.logicFlag_program : s.logicFlag.program = s.program := by unfold State.logicFlag; split <;> rfl
@[simp] theorem State.logicFlag_now : s.logicFlag.now = s.now := by unfold State.logicFlag; split <;> rfl
@[simp] theorem State.logicFlag_samples : s.logicFlag.samples = s.samples := by unfold State.logicFlag; split <;> rfl
@[simp] theorem State.logicFlag_draws : s.logicFlag.draws = s.draws := by unfold State.logicFlag; split <;> rfl
@[simp] theorem State.logicFlag_readSlot : s.logicFlag.readSlot k = s.readSlot k := by unfold State.logicFlag; split <;> rfl
@[simp] theorem State.logicFlag_byteAt : s.logicFlag.byteAt k = s.byteAt k := by unfold State.logicFlag; split <;> rfl

/-! writeRegBlock -/

@[simp] theorem State.writeRegBlock_i : (s.writeRegBlock bytes).i = s.i := rfl
@[simp] theorem State.writeRegBlock_pc : (s.writeRegBlock bytes).pc = s.pc := rfl
@[simp] theorem State.writeRegBlock_sp : (s.writeRegBlock bytes).sp = s.sp := rfl
@[simp] theorem State.writeRegBlock_stack : (s.writeRegBlock bytes).stack = s.stack := rfl
@[simp] theorem State.writeRegBlock_dt : (s.writeRegBlock bytes).dt = s.dt := rfl
@[simp] theorem State.writeRegBlock_st : (s.writeRegBlock bytes).st = s.st := rfl
@[simp] theorem State.writeRegBlock_mem : (s.writeRegBlock bytes).mem = s.mem := rfl
@[simp] theorem State.writeRegBlock_fb : (s.writeRegBlock bytes).fb = s.fb := rfl
@[simp] theorem State.writeRegBlock_key : (s.writeRegBlock bytes).key = s.key := rfl
@[simp] theorem State.writeRegBlock_released : (s.writeRegBlock bytes).released = s.released := rfl
@[simp] theorem State.writeRegBlock_lastDraw : (s.writeRegBlock bytes).lastDraw = s.lastDraw := rfl
@[simp] theorem State.writeRegBlock_beep : (s.writeRegBlock bytes).beep = s.beep := rfl
@[simp] theorem State.writeRegBlock_loaded : (s.writeRegBlock bytes).loaded = s.loaded := rfl
@[simp] theorem State.writeRegBlock_halted : (s.writeRegBlock bytes).halted = s.halted := rfl
@[simp] theorem State.writeRegBlock_fault : (s.writeRegBlock bytes).fault = s.fault := rfl
@[simp] theorem State.writeRegBlock_soundEnabled : (s.writeRegBlock bytes).soundEnabled = s.soundEnabled := rfl
@[simp] theorem State.writeRegBlock_cfg : (s.writeRegBlock bytes).cfg = s.cfg := rfl
@[simp] theorem State.writeRegBlock_program : (s.writeRegBlock bytes).program = s.program := rfl
@[simp] theorem State.writeRegBlock_now : (s.writeRegBlock bytes).now = s.now := rfl
@[simp] theorem State.writeRegBlock_samples : (s.writeRegBlock bytes).samples = s.samples := rfl
@[simp] theorem State.writeRegBlock_draws : (s.writeRegBlock bytes).draws = s.draws := rfl
@[simp] theorem State.writeRegBlock_readSlot : (s.writeRegBlock bytes).readSlot k = s.readSlot k := rfl
@[simp] theorem State.writeRegBlock_byteAt : (s.writeRegBlock bytes).byteAt k = s.byteAt k := rfl

/-! storeBytes -/

@[simp] theorem State.storeBytes_v : (s.storeBytes n bytes).v = s.v := rfl
@[simp] theorem State.storeBytes_i : (s.storeBytes n bytes).i = s.i := rfl
@[simp] theorem State.storeBytes_pc : (s.storeBytes n bytes).pc = s.pc := rfl
@[simp] theorem State.storeBytes_sp : (s.storeBytes n bytes).sp = s.sp := rfl
@[simp] theorem State.storeBytes_stack : (s.storeBytes n bytes).stack = s.stack := rfl
@[simp] theorem State.storeBytes_dt : (s.storeBytes n bytes).dt = s.dt := rfl
@[simp] theorem State.storeBytes_st : (s.storeBytes n bytes).st = s.st := rfl
@[simp] theorem State.storeBytes_fb : (s.storeBytes n bytes).fb = s.fb := rfl
@[simp] theorem State.storeBytes_key : (s.storeBytes n bytes).key = s.key := rfl
@[simp] theorem State.storeBytes_released : (s.storeBytes n bytes).released = s.released := rfl
@[simp] theorem State.storeBytes_lastDraw : (s.storeBytes n bytes).lastDraw = s.lastDraw := rfl
@[simp] theorem State.storeBytes_beep : (s.storeBytes n bytes).beep = s.beep := rfl
@[simp] theorem State.storeBytes_loaded : (s.storeBytes n bytes).loaded = s.loaded := rfl
@[simp] theorem State.storeBytes_halted : (s.storeBytes n bytes).halted = s.halted := rfl
@[simp] theorem State.storeBytes_fault : (s.storeBytes n bytes).fault = s.fault := rfl
@[simp] theorem State.storeBytes_soundEnabled : (s.storeBytes n bytes).soundEnabled = s.soundEnabled := rfl
@[simp] theorem State.storeBytes_cfg : (s.storeBytes n bytes).cfg = s.cfg := rfl
@[simp] theorem State.storeBytes_program : (s.storeBytes n bytes).program = s.program := rfl
@[simp] theorem State.storeBytes_now : (s.storeBytes n bytes).now = s.now := rfl
@[simp] theorem State.storeBytes_samples : (s.storeBytes n bytes).samples = s.samples := rfl
@[simp] theorem State.storeBytes_draws : (s.storeBytes n bytes).draws = s.draws := rfl
@[simp] theorem State.storeBytes_readV : (s.storeBytes n bytes).readV y = s.readV y := rfl
@[simp] theorem State.storeBytes_readSlot : (s.storeBytes n bytes).readSlot k = s.readSlot k := rfl

/-! advanceI -/

@[simp] theorem State.advanceI_v : (s.advanceI x).v = s.v := by unfold State.advanceI; split <;> rfl
@[simp] theorem State.advanceI_pc : (s.advanceI x).pc = s.pc := by unfold State.advanceI; split <;> rfl
@[simp] theorem State.advanceI_sp : (s.advanceI x).sp = s.sp := by unfold State.advanceI; split <;> rfl
@[simp] theorem State.advanceI_stack : (s.advanceI x).stack = s.stack := by unfold State.advanceI; split <;> rfl
@[simp] theorem State.advanceI_dt : (s.advanceI x).dt = s.dt := by unfold State.advanceI; split <;> rfl
@[simp] theorem State.advanceI_st : (s.advanceI x).st = s.st := by unfold State.advanceI; split <;> rfl
@[simp] theorem State.advanceI_mem : (s.advanceI x).mem = s.mem := by unfold State.advanceI; split <;> rfl
@[simp] theorem State.advanceI_fb : (s.advanceI x).fb = s.fb := by unfold State.advanceI; split <;> rfl
@[simp] theorem State.advanceI_key : (s.advanceI x).key = s.key := by unfold State.advanceI; split <;> rfl
@[simp] theorem State.advanceI_released : (s.advanceI x).released = s.released := by unfold State.advanceI; split <;> rfl
@[simp] theorem State.advanceI_lastDraw : (s.advanceI x).lastDraw = s.lastDraw := by unfold State.advanceI; split <;> rfl
@[simp] theorem State.advanceI_beep : (s.advanceI x).beep = s.beep := by unfold State.advanceI; split <;> rfl
@[simp] theorem State.advanceI_loaded : (s.advanceI x).loaded = s.loaded := by unfold State.advanceI; split <;> rfl
@[simp] theorem State.advanceI_halted : (s.advanceI x).halted = s.halted := by unfold State.advanceI; split <;> rfl
@[simp] theorem State.advanceI_fault : (s.advanceI x).fault = s.fault := by unfold State.advanceI; split <;> rfl
@[simp] theorem State.advanceI_soundEnabled : (s.advanceI x).soundEnabled = s.soundEnabled := by unfold State.advanceI; split <;> rfl
@[simp] theorem State.advanceI_cfg : (s.advanceI x).cfg = s.cfg := by unfold State.advanceI; split <;> rfl
@[simp] theorem State.advanceI_program : (s.advanceI x).program = s.program := by unfold State.advanceI; split <;> rfl
@[simp] theorem State.advanceI_now : (s.advanceI x).now = s.now := by unfold State.advanceI; split <;> rfl
@[simp] theorem State.advanceI_samples : (s.advanceI x).samples = s.samples := by unfold State.advanceI; split <;> rfl
@[simp] theorem State.advanceI_draws : (s.advanceI x).draws = s.draws := by unfold State.advanceI; split <;> rfl
@[simp] theorem State.advanceI_readV : (s.advanceI x).readV y = s.readV y := by unfold State.advanceI; split <;> rfl
@[simp] theorem State.advanceI_readSlot : (s.advanceI x).readSlot k = s.readSlot k := by unfold State.advanceI; split <;> rfl
@[simp] theorem State.advanceI_byteAt : (s.advanceI x).byteAt k = s.byteAt k := by unfold State.advanceI; split <;> rfl

/-! Reading a register after a write (10_state.md R20). -/

theorem State.readV_writeV : (s.writeV x b).readV y = if y = x then b else s.readV y := by
  unfold State.readV State.writeV
  simp only [Vector.getElem_set]
  by_cases h : y = x
  · simp [h]
  · rw [if_neg h, if_neg]
    intro e
    exact h (BitVec.eq_of_toNat_eq e.symm)

@[simp] theorem State.readV_writeV_same : (s.writeV x b).readV x = b := by
  rw [State.readV_writeV, if_pos rfl]

theorem State.readV_writeV_other (h : y ≠ x) : (s.writeV x b).readV y = s.readV y := by
  rw [State.readV_writeV, if_neg h]

theorem State.readV_writeFlag :
    (s.writeFlag c).readV y = if y = regF then flagByte c else s.readV y :=
  State.readV_writeV s regF y (flagByte c)

/-- R160: the flag is written last, so it remains when the target is VF. -/
theorem State.readV_writeResultFlag :
    (s.writeResultFlag x b c).readV y =
      if y = regF then flagByte c else if y = x then b else s.readV y := by
  unfold State.writeResultFlag
  rw [State.readV_writeFlag, State.readV_writeV]

theorem State.readV_logicFlag :
    s.logicFlag.readV y = if y = regF ∧ s.cfg.logicClearsVf = true then 0 else s.readV y := by
  unfold State.logicFlag
  split
  · rename_i h
    rw [State.readV_writeV]
    simp [h]
  · rename_i h
    simp [h]

theorem State.advanceI_i :
    (s.advanceI x).i = if s.cfg.indexIncrement then s.i + x.setWidth 16 + 1 else s.i := by
  unfold State.advanceI
  split <;> rfl

/-- R186: register `y` after a block write. -/
theorem State.readV_writeRegBlock :
    (s.writeRegBlock bytes).readV y = bytes.getD y.toNat (s.readV y) := by
  simp [State.readV, State.writeRegBlock]

/-! The ring stack (10_state.md R27, R28). -/

/-- R27: a push writes the slot the pointer names and no other. -/
theorem State.readSlot_push :
    (s.push a).readSlot k = if k % 16 = ringSlot s.sp then a else s.readSlot k := by
  simp only [State.readSlot, State.push, Vector.getElem_set]
  by_cases h : ringSlot s.sp = k % 16
  · simp [h]
  · rw [if_neg h, if_neg (fun e => h e.symm)]

end Sys2Proof.Machine
end

