-- ==== Sys2Proof/Laws/Ops.lean ====
section
/-! SUPPORT. For each shared operation, everything it can do. -/

namespace Sys2Proof.Machine

/-- All that a checked store through I can do (20_memory.md R66, R67, R71). -/
theorem State.storeAtI_eq (s : State) (w : Word) (bytes : List Byte) (h : bytes ≠ []) :
    s.storeAtI w bytes =
      if Memory.size < s.i.toNat + bytes.length then
        .error (addressFault .outOfRange (some w) (max s.i.toNat Memory.size))
      else if s.i.toNat < Memory.glyphEnd then .error (addressFault .glyphWrite (some w) s.i.toNat)
      else .ok (s.storeBytes s.i.toNat bytes) := by
  have hl : bytes.length ≠ 0 := fun e => h (List.length_eq_zero_iff.1 e)
  unfold State.storeAtI
  rw [firstOutside_eq, firstInGlyphs_eq]
  by_cases h1 : s.i.toNat + bytes.length ≤ Memory.size
  · by_cases h2 : Memory.glyphEnd ≤ s.i.toNat
    · simp [h1, h2, hl, Nat.not_lt.2 h1, Nat.not_lt.2 h2]
    · simp [h1, h2, hl, Nat.not_lt.2 h1, Nat.not_le.1 h2]
  · simp [h1, hl, Nat.not_le.1 h1]

/-- All that a checked load through I can do (R66, R71). -/
theorem State.loadAtI_eq (s : State) (w : Word) (n : Nat) :
    s.loadAtI w n =
      if n = 0 ∨ s.i.toNat + n ≤ Memory.size then .ok (s.bytesAt s.i.toNat n)
      else .error (addressFault .outOfRange (some w) (max s.i.toNat Memory.size)) := by
  unfold State.loadAtI
  rw [firstOutside_eq]
  split <;> rename_i h <;> split at h <;> simp_all

/-- A meaning over a possible fault answers a next state: the result, or the state before with the record. -/
theorem State.orRaise_eq (s : State) (e : Except FaultRecord State) :
    ∃ t, s.orRaise e = .next t ∧ (e = .ok t ∨ ∃ r, e = .error r ∧ t = s.raise r) := by
  cases e with
  | ok t => exact ⟨t, rfl, .inl rfl⟩
  | error r => exact ⟨s.raise r, rfl, .inr ⟨r, rfl, rfl⟩⟩

/-- All that a fetch can do (40_execution_cycle.md R123). -/
theorem State.fetch_eq (s : State) :
    s.fetch = if s.pc.toNat ≤ 0xFFE then
        .ok (wordOfBytes (s.byteAt s.pc.toNat) (s.byteAt (s.pc.toNat + 1)))
      else .error (addressFault .outOfRange none (fetchFaultAddress s.pc)) := rfl

/-- R64: the address a failing fetch reports. -/
theorem fetchFaultAddress_eq (pc : Word) :
    fetchFaultAddress pc = if pc.toNat = 0xFFF then 0x1000 else pc.toNat := by
  have h : pc = 0xFFF#16 ↔ pc.toNat = 0xFFF := by rw [← BitVec.toNat_inj]; rfl
  simp only [fetchFaultAddress, h]

/-- A sample of the clock never goes back (00_scope.md R10). -/
theorem State.sampleClock_now (s : State) : s.now ≤ s.sampleClock.now := by
  have h : (0 : Rat) ≤ ((Config.clockStep s.samples).1 : Rat) / ((Config.clockStep s.samples).2 + 1 : Rat) := by
    positivity
  simpa [State.sampleClock] using h

@[simp] theorem decimalDigits_length (b : Byte) : (decimalDigits b).length = 3 := rfl

@[simp] theorem State.regBlock_length (s : State) (x : Nibble) : (s.regBlock x).length = x.toNat + 1 := by
  simp [State.regBlock]

/-- R185: byte `k` of a register block is `V[k]`. -/
theorem State.getElem_regBlock (s : State) (x k : Nibble) (h : k.toNat < (s.regBlock x).length) :
    (s.regBlock x)[k.toNat] = s.readV k := by
  simp [State.regBlock]

/-- R27: the pointer after a push, as a number. -/
theorem toNat_pushedSp (sp : Byte) : ((sp + 1) % 16).toNat = (sp.toNat + 1) % 16 := by
  simp

/-- R28: the pointer after a pop, as a number. -/
theorem toNat_poppedSp (sp : Byte) (h : sp.toNat ≤ 15) :
    (poppedSp sp).toNat = if sp.toNat = 0 then 15 else sp.toNat - 1 := by
  simp [poppedSp, BitVec.toNat_sub]
  split <;> omega

/-- A `pc` written from a 12-bit address. -/
@[simp] theorem toNat_zextAddr (nnn : Addr12) : (zextAddr nnn).toNat = nnn.toNat := by
  simp [zextAddr]
  omega

@[simp] theorem toNat_zextByte (b : Byte) : (zextByte b).toNat = b.toNat := by
  simp [zextByte]
  omega

end Sys2Proof.Machine
end

