-- ==== Sys2Proof/Laws/Display.lean ====
section
/-! SUPPORT. What drawing does to the picture, pixel by pixel. -/

namespace Sys2Proof.Machine

open Sys2Proof.Safety

/-- R194: the pixels a sprite byte lights in a row. -/
theorem rowMask_getLsbD (wrap : Bool) (b : Byte) (x0 : Nat) (c : Fin 64) (hx : x0 < 64) :
    (rowMask wrap b x0).getLsbD (63 - c.val) = true ↔
      ∃ j, j < 8 ∧ b.getLsbD (7 - j) = true ∧ c.val = if wrap then (x0 + j) % 64 else x0 + j := by
  have hb : ∀ k, ((b.setWidth 64 : Row) <<< 56).getLsbD k = true ↔
      (56 ≤ k ∧ k < 64) ∧ b.getLsbD (k - 56) = true := by
    intro k
    rw [BitVec.getLsbD_shiftLeft, BitVec.getLsbD_setWidth]
    by_cases h1 : k < 56
    · simp [h1]
    · by_cases h2 : k < 64
      · simp [h1, h2]; omega
      · simp [h2]
  cases wrap with
  | false =>
    simp only [rowMask, BitVec.getLsbD_ushiftRight, hb, Bool.false_eq_true, if_false]
    constructor
    · rintro ⟨h1, h2⟩
      exact ⟨c.val - x0, by omega, by rwa [show 7 - (c.val - x0) = x0 + (63 - c.val) - 56 by omega], by omega⟩
    · rintro ⟨j, h1, h2, h3⟩
      exact ⟨by omega, by rwa [show x0 + (63 - c.val) - 56 = 7 - j by omega]⟩
  | true =>
    simp only [rowMask, if_true, BitVec.getLsbD_rotateRight, Nat.mod_eq_of_lt hx]
    by_cases h : 63 - c.val < 64 - x0
    · simp only [h, decide_true, cond_true, hb]
      constructor
      · rintro ⟨h1, h2⟩
        exact ⟨c.val - x0, by omega, by rwa [show 7 - (c.val - x0) = x0 + (63 - c.val) - 56 by omega], by omega⟩
      · rintro ⟨j, h1, h2, h3⟩
        exact ⟨by omega, by rwa [show x0 + (63 - c.val) - 56 = 7 - j by omega]⟩
    · simp only [h, decide_false, cond_false, Bool.and_eq_true, decide_eq_true_eq, hb]
      constructor
      · rintro ⟨h1, h2, h3⟩
        exact ⟨c.val + 64 - x0, by omega,
          by rwa [show 7 - (c.val + 64 - x0) = 63 - c.val - (64 - x0) - 56 by omega], by omega⟩
      · rintro ⟨j, h1, h2, h3⟩
        exact ⟨by omega, by omega, by rwa [show 63 - c.val - (64 - x0) - 56 = 7 - j by omega]⟩

/-- The sprite rows `rows` drawn from row number `r` and column `x0` on have a set bit that lands on row `q`, column `c`
(R194, R195). -/
def Lands (wrap : Bool) (x0 : Nat) (rows : List Byte) (r : Nat) (q : Fin 32) (c : Fin 64) : Prop :=
  ∃ k j : Nat, k < rows.length ∧ j < 8 ∧ (rows.getD k 0).getLsbD (7 - j) = true ∧
    (if wrap then q.val = (r + k) % 32 ∧ c.val = (x0 + j) % 64 else q.val = r + k ∧ c.val = x0 + j)

/-- `Safety.Covers` in terms of the sprite rows a draw loads. -/
theorem covers_iff_lands (s : State) (n x0 y0 : Nat) (r : Fin 32) (c : Fin 64) :
    Covers s n x0 y0 r c ↔ Lands s.cfg.spriteWrap x0 (s.bytesAt s.i.toNat n) y0 r c := by
  unfold Covers Lands
  simp only [State.bytesAt_length]
  constructor <;> rintro ⟨k, j, hk, hj, hb, h⟩ <;> exact ⟨k, j, hk, hj, by simpa [hk, State.getElem_bytesAt] using hb, h⟩

/-- The first sprite row lands on one row of the picture, the others on the rows after it. -/
theorem lands_cons (wrap : Bool) (x0 : Nat) (b : Byte) (bs : List Byte) (r : Nat) (q : Fin 32) (c : Fin 64)
    (hx : x0 < 64) :
    Lands wrap x0 (b :: bs) r q c ↔
      (q.val = (if wrap then r % 32 else r) ∧ (rowMask wrap b x0).getLsbD (63 - c.val) = true) ∨
        Lands wrap x0 bs (r + 1) q c := by
  rw [rowMask_getLsbD wrap b x0 c hx]
  constructor
  · rintro ⟨k, j, hk, hj, hb, h⟩
    cases k with
    | zero =>
      refine .inl ⟨?_, j, hj, by simpa using hb, ?_⟩ <;> cases wrap <;> simp_all
    | succ k =>
      refine .inr ⟨k, j, by simpa using hk, hj, by simpa using hb, ?_⟩
      rwa [show r + 1 + k = r + (k + 1) by omega]
  · rintro (⟨hq, j, hj, hb, h⟩ | ⟨k, j, hk, hj, hb, h⟩)
    · refine ⟨0, j, by simp, hj, by simpa using hb, ?_⟩
      cases wrap <;> simp_all
    · refine ⟨k + 1, j, by simpa using hk, hj, by simpa using hb, ?_⟩
      rwa [show r + (k + 1) = r + 1 + k by omega]

/-- R195, R196: a draw of at most 32 sprite rows toggles exactly the pixels they land on, and reports whether one of
those was lit. -/
theorem drawRows_pixels (wrap : Bool) (x0 : Nat) (rows : List Byte) (r : Nat) (fb : Screen) (hit : Bool)
    (hx : x0 < 64) (hn : rows.length ≤ 32) :
    (∀ q c, pixel (drawRows wrap x0 rows r fb hit).1 q c ≠ pixel fb q c ↔ Lands wrap x0 rows r q c) ∧
    ((drawRows wrap x0 rows r fb hit).2 = true ↔
      hit = true ∨ ∃ q c, pixel fb q c = true ∧ Lands wrap x0 rows r q c) := by
  induction rows generalizing r fb hit with
  | nil => simp [drawRows, Lands]
  | cons b bs ih =>
    simp only [List.length_cons] at hn
    simp only [drawRows, targetRow]
    by_cases hin : (decide (r ≤ 31) || wrap) = true
    · simp only [hin, if_true]
      have hk : (Fin.ofNat 32 r).val = if wrap then r % 32 else r := by
        cases wrap <;> simp_all
        omega
      generalize Fin.ofNat 32 r = k at hk
      generalize hm : rowMask wrap b x0 = m
      have hp : ∀ q c, pixel (fb.set k (fb[k] ^^^ m)) q c =
          if q = k then (pixel fb q c ^^ m.getLsbD (63 - c.val)) else pixel fb q c := by
        intro q c
        by_cases h : q = k
        · subst h; simp [pixel]
        · have : k.val ≠ q.val := fun e => h (Fin.ext e.symm)
          simp [pixel, this, h]
      have hlater : ∀ q c, Lands wrap x0 bs (r + 1) q c → q ≠ k := by
        rintro q c ⟨i, j, hi, -, -, h⟩ rfl
        cases wrap <;> simp only [Bool.false_eq_true, if_false, if_true] at h hk <;> omega
      have hl : ∀ q c, Lands wrap x0 (b :: bs) r q c ↔
          (q = k ∧ m.getLsbD (63 - c.val) = true) ∨ Lands wrap x0 bs (r + 1) q c := by
        intro q c
        rw [lands_cons wrap x0 b bs r q c hx, hm, ← hk, Fin.val_inj]
      obtain ⟨ih1, ih2⟩ := ih (r + 1) (fb.set k (fb[k] ^^^ m)) (hit || fb[k] &&& m != 0) (by omega)
      constructor
      · intro q c
        have h1 := ih1 q c
        rw [hp] at h1
        rw [hl]
        by_cases h : q = k
        · have h2 : ¬ Lands wrap x0 bs (r + 1) q c := fun e => hlater q c e h
          have h3 := (not_congr h1).2 h2
          simp only [h, if_true, not_not] at h3
          simp only [h, true_and]
          subst h
          rw [h3]
          simp only [h2, or_false]
          cases pixel fb q c <;> cases m.getLsbD (63 - c.val) <;> simp
        · simp only [h, if_false] at h1
          simp only [h, false_and, false_or]
          exact h1
      · rw [ih2]
        have hhit : (fb[k] &&& m != 0) = true ↔ ∃ c : Fin 64, pixel fb k c = true ∧ m.getLsbD (63 - c.val) = true := by
          constructor
          · intro h
            by_contra hno
            apply (bne_iff_ne.1 h)
            apply BitVec.eq_of_getLsbD_eq
            intro i hi
            by_contra hc
            apply hno
            refine ⟨⟨63 - i, by omega⟩, ?_⟩
            have e : 63 - (63 - i) = i := by omega
            simp only [pixel, e]
            simpa using hc
          · rintro ⟨c, h1, h2⟩
            apply bne_iff_ne.2
            intro h0
            have h3 := congrArg (fun v => v.getLsbD (63 - c.val)) h0
            simp only [BitVec.getLsbD_and, h2, Bool.and_true] at h3
            rw [show fb[k].getLsbD (63 - c.val) = true from h1] at h3
            simp at h3
        rw [Bool.or_eq_true, hhit]
        constructor
        · rintro ((h | ⟨c, h1, h2⟩) | ⟨q, c, h1, h2⟩)
          · exact .inl h
          · exact .inr ⟨k, c, h1, (hl k c).2 (.inl ⟨rfl, h2⟩)⟩
          · rw [hp, if_neg (hlater q c h2)] at h1
            exact .inr ⟨q, c, h1, (hl q c).2 (.inr h2)⟩
        · rintro (h | ⟨q, c, h1, h2⟩)
          · exact .inl (.inl h)
          · rcases (hl q c).1 h2 with ⟨rfl, h3⟩ | h3
            · exact .inl (.inr ⟨c, h1, h3⟩)
            · exact .inr ⟨q, c, by rw [hp, if_neg (hlater q c h3)]; exact h1, h3⟩
    · simp only [hin]
      have hno : ∀ q c, ¬ Lands wrap x0 (b :: bs) r q c := by
        rintro q c ⟨i, j, hi, -, -, h⟩
        have := q.isLt
        simp_all
        omega
      simp [hno]

end Sys2Proof.Machine
end

