-- ==== Sys2Proof/Laws/PerInstr.lean ====
section
/-! SUPPORT. The family EncodesInRow: the word of every instruction lies in its own row of 30_encoding.md R94. -/

namespace Sys2Proof.Laws.EncodesInRow

/-- The word of `i`, under the mask of its row, is the match of its row. -/
def Statement (i : Instr) : Prop := encode i &&& (opcodeRow i).1 = (opcodeRow i).2

section
variable (x y n : Nibble) (nn : Byte) (nnn : Addr12)

theorem sys : Statement (.sys nnn) := encodeA_mask _ nnn
theorem cls : Statement (.cls) := rfl
theorem ret : Statement (.ret) := rfl
theorem jp : Statement (.jp nnn) := encodeA_mask _ nnn
theorem call : Statement (.call nnn) := encodeA_mask _ nnn
theorem seByte : Statement (.seByte x nn) := encodeXI_mask _ x nn
theorem sneByte : Statement (.sneByte x nn) := encodeXI_mask _ x nn
theorem seReg : Statement (.seReg x y) := encodeXYN_maskNibble _ x y _
theorem ldByte : Statement (.ldByte x nn) := encodeXI_mask _ x nn
theorem addByte : Statement (.addByte x nn) := encodeXI_mask _ x nn
theorem ldReg : Statement (.ldReg x y) := encodeXYN_maskNibble _ x y _
theorem orReg : Statement (.orReg x y) := encodeXYN_maskNibble _ x y _
theorem andReg : Statement (.andReg x y) := encodeXYN_maskNibble _ x y _
theorem xorReg : Statement (.xorReg x y) := encodeXYN_maskNibble _ x y _
theorem addReg : Statement (.addReg x y) := encodeXYN_maskNibble _ x y _
theorem sub : Statement (.sub x y) := encodeXYN_maskNibble _ x y _
theorem shr : Statement (.shr x y) := encodeXYN_maskNibble _ x y _
theorem subn : Statement (.subn x y) := encodeXYN_maskNibble _ x y _
theorem shl : Statement (.shl x y) := encodeXYN_maskNibble _ x y _
theorem sneReg : Statement (.sneReg x y) := encodeXYN_maskNibble _ x y _
theorem ldI : Statement (.ldI nnn) := encodeA_mask _ nnn
theorem jpV0 : Statement (.jpV0 nnn) := encodeA_mask _ nnn
theorem rnd : Statement (.rnd x nn) := encodeXI_mask _ x nn
theorem drw : Statement (.drw x y n) := encodeXYN_mask _ x y n
theorem skp : Statement (.skp x) := encodeXI_maskByte _ x _
theorem sknp : Statement (.sknp x) := encodeXI_maskByte _ x _
theorem ldVxDt : Statement (.ldVxDt x) := encodeXI_maskByte _ x _
theorem ldVxK : Statement (.ldVxK x) := encodeXI_maskByte _ x _
theorem ldDtVx : Statement (.ldDtVx x) := encodeXI_maskByte _ x _
theorem ldStVx : Statement (.ldStVx x) := encodeXI_maskByte _ x _
theorem addI : Statement (.addI x) := encodeXI_maskByte _ x _
theorem ldF : Statement (.ldF x) := encodeXI_maskByte _ x _
theorem ldB : Statement (.ldB x) := encodeXI_maskByte _ x _
theorem storeRegs : Statement (.storeRegs x) := encodeXI_maskByte _ x _
theorem loadRegs : Statement (.loadRegs x) := encodeXI_maskByte _ x _

end

end Sys2Proof.Laws.EncodesInRow
end

