-- ==== Sys2Proof/Laws/Step.lean ====
section
/-! SUPPORT. What a meaning and a step can answer, for whoever takes one apart: every branch, with what it leaves. -/

namespace Sys2Proof.Machine

/-- A meaning over a possible fault, taken apart. -/
theorem State.orRaise_next {s t : State} {e : Except FaultRecord State} (h : s.orRaise e = .next t) :
    e = .ok t ∨ ∃ r, e = .error r ∧ t = s.raise r := by
  cases e with
  | ok u => cases h; exact .inl rfl
  | error r => cases h; exact .inr ⟨r, rfl, rfl⟩

/-- A checked store through I, taken apart: an AddressFault of an instruction, or all bytes are inside memory and
above the glyph table. -/
theorem State.storeAtI_cases (s : State) (w : Word) (bytes : List Byte) (h : bytes ≠ []) :
    (∃ r, s.storeAtI w bytes = .error r ∧ (r.kind = .outOfRange ∨ r.kind = .glyphWrite)) ∨
      (s.i.toNat + bytes.length ≤ Memory.size ∧ Memory.glyphEnd ≤ s.i.toNat ∧
        s.storeAtI w bytes = .ok (s.storeBytes s.i.toNat bytes)) := by
  rw [State.storeAtI_eq s w bytes h]
  split
  · exact .inl ⟨_, rfl, .inl rfl⟩
  · split
    · exact .inl ⟨_, rfl, .inr rfl⟩
    · exact .inr ⟨by omega, by omega, rfl⟩

/-- R184: what LD B, Vx can do. -/
theorem execLdB_cases {x : Nibble} {s t : State} (h : execLdB x s = .next t) :
    (∃ r, t = s.raise r) ∨
      (s.i.toNat + 3 ≤ Memory.size ∧ Memory.glyphEnd ≤ s.i.toNat ∧
        t = (s.storeBytes s.i.toNat (decimalDigits (s.readV x))).advance) := by
  obtain h | ⟨r, -, rfl⟩ := State.orRaise_next h
  · obtain ⟨r, hr, -⟩ | ⟨h1, h2, hr⟩ :=
      s.storeAtI_cases (encode (.ldB x)) (decimalDigits (s.readV x)) (by simp [decimalDigits])
    · rw [hr] at h; cases h
    · rw [hr] at h; cases h; exact .inr ⟨h1, h2, rfl⟩
  · exact .inl ⟨r, rfl⟩

/-- R185: what LD [I], Vx can do. -/
theorem execStoreRegs_cases {x : Nibble} {s t : State} (h : execStoreRegs x s = .next t) :
    (∃ r, t = s.raise r) ∨
      (s.i.toNat + (x.toNat + 1) ≤ Memory.size ∧ Memory.glyphEnd ≤ s.i.toNat ∧
        t = ((s.storeBytes s.i.toNat (s.regBlock x)).advanceI x).advance) := by
  obtain h | ⟨r, -, rfl⟩ := State.orRaise_next h
  · obtain ⟨r, hr, -⟩ | ⟨h1, h2, hr⟩ :=
      s.storeAtI_cases (encode (.storeRegs x)) (s.regBlock x) (by simp [State.regBlock])
    · rw [hr] at h; cases h
    · rw [hr] at h; cases h
      rw [State.regBlock_length] at h1
      exact .inr ⟨h1, h2, rfl⟩
  · exact .inl ⟨r, rfl⟩

/-- R186: what LD Vx, [I] can do. -/
theorem execLoadRegs_cases {x : Nibble} {s t : State} (h : execLoadRegs x s = .next t) :
    (∃ r, t = s.raise r) ∨
      (s.i.toNat + (x.toNat + 1) ≤ Memory.size ∧
        t = ((s.writeRegBlock (s.bytesAt s.i.toNat (x.toNat + 1))).advanceI x).advance) := by
  obtain h | ⟨r, -, rfl⟩ := State.orRaise_next h
  · rw [State.loadAtI_eq] at h
    split at h <;> cases h
    exact .inr ⟨by omega, rfl⟩
  · exact .inl ⟨r, rfl⟩

/-- R191: what DRW can do: be skipped, raise, or draw. -/
theorem execDrw_cases {x y n : Nibble} {s t : State} (h : execDrw x y n s = .next t) :
    (s.drawLimited = true ∧ t = s.advance) ∨ (∃ r, t = s.raise r) ∨
      (s.drawLimited = false ∧ (n.toNat = 0 ∨ s.i.toNat + n.toNat ≤ Memory.size) ∧
        t = (s.drawSprite x y (s.bytesAt s.i.toNat n.toNat)).advance) := by
  unfold execDrw at h
  split at h <;> rename_i hd
  · cases h; exact .inl ⟨hd, rfl⟩
  · obtain h | ⟨r, -, rfl⟩ := State.orRaise_next h
    · rw [State.loadAtI_eq] at h
      split at h <;> cases h
      exact .inr (.inr ⟨by simpa using hd, by assumption, rfl⟩)
    · exact .inr (.inl ⟨r, rfl⟩)

/-- R141: what SYS can do. -/
theorem execSys_cases {nnn : Addr12} {s t : State} (h : execSys nnn s = .next t) :
    (∃ r, t = s.raise r) ∨ t = s.advance := by
  unfold execSys at h
  cases h
  split
  · exact .inl ⟨_, rfl⟩
  · exact .inr rfl

/-- Every meaning answers a next state (log 10). -/
theorem exec_next (i : Instr) (s : State) : ∃ t, exec i s = .next t := by
  cases i
  case ldB | storeRegs | loadRegs => obtain ⟨t, h, -⟩ := State.orRaise_eq s _; exact ⟨t, h⟩
  case drw =>
    simp only [exec, execDrw]
    split
    · exact ⟨_, rfl⟩
    · obtain ⟨t, h, -⟩ := State.orRaise_eq s _; exact ⟨t, h⟩
  all_goals exact ⟨_, rfl⟩

/-- R122: what a step can do: nothing on a disabled machine; else a fetch fault, a decode fault, or an instruction. -/
theorem step_cases {s t : State} (h : step s = .next t) :
    (s.enabled = false ∧ t = s) ∨
    (s.enabled = true ∧
      ((∃ r, s.sampleClock.fetch = .error r ∧ t = s.sampleClock.raise r) ∨
        ∃ w, s.sampleClock.fetch = .ok w ∧
          ((∃ e, decodeWord w = .error e ∧ t = s.sampleClock.raise (decodeFault w s.pc)) ∨
            ∃ i u, decodeWord w = .ok i ∧ exec i s.sampleClock = .next u ∧ t = u.endInstruction))) := by
  unfold step stepMachine at h
  split at h <;> rename_i he
  · refine .inr ⟨he, ?_⟩
    unfold executeOne at h
    split at h
    · rename_i r hr; cases h; exact .inl ⟨r, hr, rfl⟩
    · rename_i w hw
      refine .inr ⟨w, hw, ?_⟩
      split at h
      · rename_i e hd; cases h; exact .inl ⟨e, hd, rfl⟩
      · rename_i i hd
        obtain ⟨u, hu⟩ := exec_next i s.sampleClock
        rw [hu] at h; cases h
        exact .inr ⟨i, u, hd, hu, rfl⟩
  · cases h; exact .inl ⟨by simpa using he, rfl⟩

end Sys2Proof.Machine
end

