-- ==== Sys2Proof/Tests/Slice0.lean ====
section
/-! SUPPORT. Tests with expected values from the spec (95_test_vectors.md unless said otherwise), and for every statement
with hypotheses states and operands that meet them. -/

namespace Sys2Proof.Tests

open Sys2Proof.Machine Sys2Proof.Safety

/-! ## Well-formed instructions (30_encoding.md R95) -/

theorem test_sys_of_cls_is_ill_formed : (Instr.sys 0x0E0).wellFormed = false := by decide

theorem test_sys_of_ret_is_ill_formed : (Instr.sys 0x0EE).wellFormed = false := by decide

theorem test_other_sys_is_well_formed : (Instr.sys 0x0E1).wellFormed = true := by decide

/-! ## Decoding: one word per row, written out from its pattern (30_encoding.md R91, R94) -/

theorem test_decode_sys : decodeWord 0b0000_000100100011#16 = .ok (.sys 0x123) := by decide

theorem test_decode_cls : decodeWord 0b0000_0000_1110_0000#16 = .ok .cls := by decide

theorem test_decode_ret : decodeWord 0b0000_0000_1110_1110#16 = .ok .ret := by decide

theorem test_decode_jp : decodeWord 0b0001_001000101000#16 = .ok (.jp 0x228) := by decide

theorem test_decode_call : decodeWord 0b0010_001100000000#16 = .ok (.call 0x300) := by decide

theorem test_decode_seByte : decodeWord 0b0011_1010_00000111#16 = .ok (.seByte 10 7) := by decide

theorem test_decode_sneByte : decodeWord 0b0100_1010_00000111#16 = .ok (.sneByte 10 7) := by decide

theorem test_decode_seReg : decodeWord 0b0101_0001_0010_0000#16 = .ok (.seReg 1 2) := by decide

theorem test_decode_ldByte : decodeWord 0b0110_0001_10101011#16 = .ok (.ldByte 1 0xAB) := by decide

theorem test_decode_addByte : decodeWord 0b0111_1111_00000010#16 = .ok (.addByte 15 2) := by decide

theorem test_decode_ldReg : decodeWord 0b1000_0001_0010_0000#16 = .ok (.ldReg 1 2) := by decide

theorem test_decode_orReg : decodeWord 0b1000_0001_0010_0001#16 = .ok (.orReg 1 2) := by decide

theorem test_decode_andReg : decodeWord 0b1000_0001_0010_0010#16 = .ok (.andReg 1 2) := by decide

theorem test_decode_xorReg : decodeWord 0b1000_0001_0010_0011#16 = .ok (.xorReg 1 2) := by decide

theorem test_decode_addReg : decodeWord 0b1000_0001_0010_0100#16 = .ok (.addReg 1 2) := by decide

theorem test_decode_sub : decodeWord 0b1000_0001_0010_0101#16 = .ok (.sub 1 2) := by decide

theorem test_decode_shr : decodeWord 0b1000_0001_0010_0110#16 = .ok (.shr 1 2) := by decide

theorem test_decode_subn : decodeWord 0b1000_0001_0010_0111#16 = .ok (.subn 1 2) := by decide

theorem test_decode_shl : decodeWord 0b1000_0001_0010_1110#16 = .ok (.shl 1 2) := by decide

theorem test_decode_sneReg : decodeWord 0b1001_0001_0010_0000#16 = .ok (.sneReg 1 2) := by decide

theorem test_decode_ldI : decodeWord 0b1010_001011110000#16 = .ok (.ldI 0x2F0) := by decide

theorem test_decode_jpV0 : decodeWord 0b1011_001000010000#16 = .ok (.jpV0 0x210) := by decide

theorem test_decode_rnd : decodeWord 0b1100_0001_11110000#16 = .ok (.rnd 1 0xF0) := by decide

theorem test_decode_drw : decodeWord 0b1101_0001_0010_0101#16 = .ok (.drw 1 2 5) := by decide

theorem test_decode_skp : decodeWord 0b1110_0101_10011110#16 = .ok (.skp 5) := by decide

theorem test_decode_sknp : decodeWord 0b1110_0101_10100001#16 = .ok (.sknp 5) := by decide

theorem test_decode_ldVxDt : decodeWord 0b1111_0011_00000111#16 = .ok (.ldVxDt 3) := by decide

theorem test_decode_ldVxK : decodeWord 0b1111_0100_00001010#16 = .ok (.ldVxK 4) := by decide

theorem test_decode_ldDtVx : decodeWord 0b1111_0010_00010101#16 = .ok (.ldDtVx 2) := by decide

theorem test_decode_ldStVx : decodeWord 0b1111_0000_00011000#16 = .ok (.ldStVx 0) := by decide

theorem test_decode_addI : decodeWord 0b1111_0001_00011110#16 = .ok (.addI 1) := by decide

theorem test_decode_ldF : decodeWord 0b1111_0001_00101001#16 = .ok (.ldF 1) := by decide

theorem test_decode_ldB : decodeWord 0b1111_0001_00110011#16 = .ok (.ldB 1) := by decide

theorem test_decode_storeRegs : decodeWord 0b1111_0010_01010101#16 = .ok (.storeRegs 2) := by decide

theorem test_decode_loadRegs : decodeWord 0b1111_0010_01100101#16 = .ok (.loadRegs 2) := by decide

/-- V-E5 to V-E9: one illegal word of each class. -/
theorem test_decode_illegal :
    decodeWord 0x512F = .error .illegalFive ∧ decodeWord 0x8128 = .error .illegalEight ∧
    decodeWord 0x9121 = .error .illegalNine ∧ decodeWord 0xE1A0 = .error .illegalE ∧
    decodeWord 0xF175 = .error .illegalF := by decide

/-- R90: the first byte is the high one; fewer than two bytes are no instruction. -/
theorem test_decode_bytes :
    decode [0x60, 0x12, 0x99] = .ok (.ldByte 0 0x12, [0x99]) ∧ decode [0x60] = .error .truncated := by decide

theorem test_decodeTableWord : decodeTableWord 16 0x6012 = some (.ldByte 0 0x12) := by decide

/-! ## One instruction at a time -/

/-- What the state is after the instruction of word `w`. -/
def after (w : Word) (s : State) : Option State :=
  match decodeWord w with
  | .error _ => none
  | .ok i =>
    match exec i s with
    | .next t => some t
    | _ => none

/-- Reset with three registers set. -/
def withRegs (v1 v2 vf : Byte) : State :=
  ((State.reset.writeV 1 v1).writeV 2 v2).writeV 15 vf

/-- V-C3 and V-E3. -/
theorem test_sys : (after 0x0123 State.reset).map (fun t => (t.fault, t.pc)) =
    some (some ⟨.decode, .noKind, some 0x0123, 0x200⟩, 0x200) := by decide

/-- S3. -/
theorem test_ret : (after 0x00EE { State.reset with stack := State.reset.stack.set 15 0x0300 }).map
    (fun t => (t.pc, t.sp, t.readSlot 15)) = some (0x302, 15, 0x0300) := by decide

/-- V-C1. -/
theorem test_jp : (after 0x1228 State.reset).map (·.pc) = some 0x228 := by decide

/-- V-C6. -/
theorem test_call : (after 0x2300 { State.reset with sp := 15 }).map
    (fun t => (t.readSlot 15, t.sp, t.pc)) = some (0x200, 0, 0x300) := by decide

/-- V-C10, V-C11. -/
theorem test_seByte :
    (after 0x3A07 (State.reset.writeV 10 7)).map (·.pc) = some 0x204 ∧
    (after 0x3A07 (State.reset.writeV 10 8)).map (·.pc) = some 0x202 := by decide

/-- V-C12, V-C13. -/
theorem test_sneByte :
    (after 0x4A07 (State.reset.writeV 10 7)).map (·.pc) = some 0x202 ∧
    (after 0x4A07 (State.reset.writeV 10 8)).map (·.pc) = some 0x204 := by decide

/-- V-C15, V-C16. -/
theorem test_seReg :
    (after 0x5AB0 ((State.reset.writeV 10 0x80).writeV 11 0x7F)).map (·.pc) = some 0x202 ∧
    (after 0x5AA0 (State.reset.writeV 10 0x80)).map (·.pc) = some 0x204 := by decide

/-- V-C17, V-C18. -/
theorem test_sneReg :
    (after 0x9AB0 ((State.reset.writeV 10 0x80).writeV 11 0x7F)).map (·.pc) = some 0x204 ∧
    (after 0x9AA0 (State.reset.writeV 10 0x80)).map (·.pc) = some 0x202 := by decide

/-- V-C19, V-C21. -/
theorem test_jpV0 :
    (after 0xB210 (State.reset.writeV 0 4)).map (·.pc) = some 0x214 ∧
    (after 0xBFFF (State.reset.writeV 0 0xFF)).map (·.pc) = some 0x10FE := by decide

/-- V-C20. -/
theorem test_jpV0_second_form :
    (after 0xB210 { (State.reset.writeV 0 4).writeV 2 0x30 with cfg := { Cfg.initial with jumpVx := true } }).map
      (·.pc) = some 0x040 := by decide

/-- V-A1. -/
theorem test_ldByte : (after 0x61AB State.reset).map (fun t => (t.readV 1, t.pc)) = some (0xAB, 0x202) := by decide

/-- V-A3, V-A4. -/
theorem test_addByte :
    (after 0x7101 (withRegs 0xFF 0 0)).map (fun t => (t.readV 1, t.readV 15)) = some (0, 0) ∧
    (after 0x7F02 (withRegs 0 0 0xFF)).map (·.readV 15) = some 1 := by decide

/-- V-A5. -/
theorem test_ldReg : (after 0x8120 (withRegs 0x11 0x22 1)).map (fun t => (t.readV 1, t.readV 15)) =
    some (0x22, 1) := by decide

/-- V-A6 and V-A30 in the legacy mode. -/
theorem test_orReg :
    (after 0x8121 (withRegs 0x50 0x05 1)).map (fun t => (t.readV 1, t.readV 15)) = some (0x55, 1) ∧
    (after 0x8F21 (withRegs 0 0xF0 0x0F)).map (·.readV 15) = some 0xFF := by decide

/-- V-A7 in the modern mode. -/
theorem test_andReg :
    (after 0x8122 { withRegs 0xF0 0x3C 1 with cfg := { Cfg.initial with logicClearsVf := true } }).map
      (fun t => (t.readV 1, t.readV 15)) = some (0x30, 0) := by decide

/-- V-A8. -/
theorem test_xorReg : (after 0x8123 (withRegs 0xFF 0xFF 1)).map (fun t => (t.readV 1, t.readV 15)) =
    some (0, 1) := by decide

/-- S2 and V-A25. -/
theorem test_addReg :
    (after 0x8014 ((State.reset.writeV 0 0xF3).writeV 1 0x41)).map (fun t => (t.readV 0, t.readV 15, t.readV 1)) =
      some (0x34, 1, 0x41) ∧
    (after 0x8F24 (withRegs 0 0x20 0xF0)).map (·.readV 15) = some 1 := by decide

/-- V-A12, V-A13. -/
theorem test_sub :
    (after 0x8125 (withRegs 5 5 0)).map (fun t => (t.readV 1, t.readV 15)) = some (0, 1) ∧
    (after 0x8125 (withRegs 0 1 1)).map (fun t => (t.readV 1, t.readV 15)) = some (0xFF, 0) := by decide

/-- V-A16, V-A17. -/
theorem test_subn :
    (after 0x8127 (withRegs 1 0 1)).map (fun t => (t.readV 1, t.readV 15)) = some (0xFF, 0) ∧
    (after 0x8127 (withRegs 1 0xFF 0)).map (fun t => (t.readV 1, t.readV 15)) = some (0xFE, 1) := by decide

/-- V-A18. -/
theorem test_shr :
    (after 0x8126 (withRegs 1 0xFE 0)).map (fun t => (t.readV 1, t.readV 15)) = some (0, 1) ∧
    (after 0x8126 { withRegs 1 0xFE 0 with cfg := { Cfg.initial with shiftUsesVy := true } }).map
      (fun t => (t.readV 1, t.readV 15, t.readV 2)) = some (0x7F, 0, 0xFE) := by decide

/-- V-A20, V-A29. -/
theorem test_shl :
    (after 0x812E (withRegs 0xFF 1 0)).map (fun t => (t.readV 1, t.readV 15)) = some (0xFE, 1) ∧
    (after 0x8F2E (withRegs 0 0 0x7F)).map (·.readV 15) = some 0 := by decide

/-- V-A23: masked with 0 the free byte leaves 0. -/
theorem test_rnd : ∃ t, after 0xC100 (withRegs 9 0 0) = some t ∧ t.readV 1 = 0 ∧ t.draws = 1 :=
  ⟨_, rfl, (State.readV_writeV_same (withRegs 9 0 0).drawn 1 (Config.randomByte 0 &&& 0)).trans (by simp), rfl⟩

/-- V-M1. -/
theorem test_ldI : (after 0xA2F0 State.reset).map (·.i) = some 0x02F0 := by decide

/-- V-M3, V-M4. -/
theorem test_addI :
    (after 0xF11E { withRegs 1 0 0 with i := 0x0FFF }).map (fun t => (t.i, t.fault)) = some (0x1000, none) ∧
    (after 0xF11E { withRegs 1 0 0 with i := 0xFFFF }).map (·.i) = some 0 := by decide

/-- V-M5. -/
theorem test_ldF :
    (after 0xF129 (withRegs 0x0F 0 0)).map (·.i) = some 0x04B ∧
    (after 0xF129 (withRegs 0x1A 0 0)).map (·.i) = some 0x032 := by decide

/-- V-M6 for 128, at the top of memory as in V-M7. -/
theorem test_ldB : (after 0xF133 { withRegs 128 0 0 with i := 0xFFD }).map
    (fun t => (t.bytesAt 0xFFD 3, t.pc)) = some ([1, 2, 8], 0x202) := by decide

/-- V-M8. -/
theorem test_ldB_out_of_range : (after 0xF133 { withRegs 7 0 0 with i := 0xFFE }).map
    (fun t => (t.fault, t.mem, t.pc)) = some (some ⟨.address, .outOfRange, some 0xF133, 0x1000⟩, [], 0x200) := by
  decide

/-- V-M13 under the option. -/
theorem test_storeRegs :
    (after 0xF255 { (withRegs 0x22 0x33 0).writeV 0 0x11 with
      i := 0x400, cfg := { Cfg.initial with indexIncrement := true } }).map
      (fun t => (t.bytesAt 0x400 3, t.i)) = some ([0x11, 0x22, 0x33], 0x403) := by decide

/-- V-M11. -/
theorem test_storeRegs_into_glyphs : (after 0xF055 { State.reset with i := 0x04F }).map (·.fault) =
    some (some ⟨.address, .glyphWrite, some 0xF055, 0x004F⟩) := by decide

/-- V-M20. -/
theorem test_loadRegs : (after 0xF465 State.reset).map
    (fun t => [t.readV 0, t.readV 1, t.readV 3, t.readV 4, t.readV 5]) = some [0xF0, 0x90, 0x90, 0xF0, 0] := by decide

/-- V-M19. -/
theorem test_loadRegs_out_of_range : (after 0xF165 { State.reset with i := 0xFFFF }).map (·.fault) =
    some (some ⟨.address, .outOfRange, some 0xF165, 0xFFFF⟩) := by decide

/-- V-D1. -/
theorem test_cls : (after 0x00E0 { withRegs 0 0 7 with fb := Vector.replicate 32 1 }).map
    (fun t => (t.fb[31], t.readV 15)) = some (0, 7) := by decide

/-- Reset with a sprite byte FF and its like at 0x300. -/
def withSprite (bytes : List Byte) (x y : Byte) (wrap : Bool) : State :=
  { withRegs x y 0 with
    mem := Memory.store glyphTable [] 0x300 bytes, i := 0x300, cfg := { Cfg.initial with spriteWrap := wrap } }

/-- V-D4. -/
theorem test_drw : (after 0xD122 (withSprite [0x81, 0xC3] 70 33 false)).map (fun t => (t.fb[1], t.fb[2], t.readV 15)) =
    some (0x0204000000000000, 0x030C000000000000, 0) := by decide

/-- V-D10 at column 60, so that the sprite wraps both ways as in V-D6. -/
theorem test_drw_wraps : (after 0xD123 (withSprite [0xAA, 0xBB, 0xCC] 60 31 true)).map
    (fun t => (t.fb[31], t.fb[0], t.fb[1])) =
    some (0xA00000000000000A, 0xB00000000000000B, 0xC00000000000000C) := by decide

/-- V-T1, V-T2, V-T3, V-T6, V-T8. -/
theorem test_timer_read :
    (⟨200, 0⟩ : Timer).read 0 = 200 ∧ (⟨200, 0⟩ : Timer).read 1 = 140 ∧
    (⟨200, 0⟩ : Timer).read (1 / 120) = 200 ∧ (⟨1, 0⟩ : Timer).read (1 / 100) = 0 ∧
    (⟨5, 0⟩ : Timer).read 1 = 0 := by decide +kernel

/-- V-T13. -/
theorem test_ldVxDt : (after 0xF307 { State.reset with dt := ⟨200, 10⟩, now := 11 }).map (·.readV 3) = some 140 := by
  decide +kernel

/-- V-T14. -/
theorem test_ldDtVx : (after 0xF215 { withRegs 0 0x3C 0 with now := 5 }).map (·.dt) = some ⟨60, 5⟩ := by
  decide +kernel

/-- V-T15, V-T17: the sound timer written and the sound of the instruction and of a later one. -/
theorem test_ldStVx :
    (after 0xF018 { State.reset.writeV 0 2 with now := 1 }).map
      (fun t => (t.st, t.soundOn, { t with now := 103 / 100 }.soundOn)) = some (⟨2, 1⟩, true, false) := by
  decide +kernel

/-- Reset with key 10 down and a release of key 3 pending. -/
def withKeys (v5 : Byte) : State :=
  { State.reset.writeV 5 v5 with key := State.reset.key.set 10 true, released := some 3 }

/-- V-K5, V-K6. -/
theorem test_skp :
    (after 0xE59E (withKeys 0x1A)).map (fun t => (t.pc, t.released)) = some (0x204, some 3) := by decide

/-- V-K4, V-K3 with another key, V-K7. -/
theorem test_sknp :
    (after 0xE5A1 (withKeys 0x0A)).map (·.pc) = some 0x202 ∧
    (after 0xE5A1 { withKeys 0x0B with cfg := { Cfg.initial with keyqueryConsumesRelease := true } }).map
      (fun t => (t.pc, t.released)) = some (0x204, none) := by decide

/-- V-K8, V-K9. -/
theorem test_ldVxK :
    (after 0xF40A { State.reset with released := some 7 }).map (fun t => (t.readV 4, t.released, t.pc)) =
      some (7, none, 0x202) ∧
    after 0xF40A State.reset = some State.reset := by decide

/-! ## Steps, the host and memory -/

/-- S1: a step of the machine with the word placed where it fetches. -/
theorem test_step : ∃ t, step (State.reset.withFetchWord 16 0x6012) = .next t ∧ t.readV 0 = 0x12 ∧ t.pc = 0x202 :=
  ⟨_, rfl, by decide, by decide⟩

/-- V-L3 (the load), V-L2 with a short image. -/
theorem test_load :
    ((State.reset.load [0x60, 0x12] 0xFFE).loaded, (State.reset.load [0x60, 0x12] 0xFFE).pc) = (true, 0xFFE) ∧
    (State.reset.load [0x60, 0x12] 0xFFF).fault = some ⟨.config, .noKind, none, 0xFFF⟩ ∧
    (State.reset.load [0x60, 0x12] 0xFFF).mem = [] := by decide

/-- V-L4. -/
theorem test_load_over_glyphs : (State.reset.load [0xAA] 0).bytesAt 0 5 = [0xAA, 0x90, 0x90, 0x90, 0xF0] := by
  decide

/-- R7: GLYPHS is a parameter, and a load leaves its bytes at 0x000 to 0x04F and zero above. -/
theorem test_load_writes_glyphs :
    let s := State.powerOn true { Cfg.initial with glyphs := Vector.replicate 80 7 }
    ((s.load [1] 0x200).byteAt 0x000, (s.load [1] 0x200).byteAt 0x04F, (s.load [1] 0x200).byteAt 0x050) = (7, 7, 0) := by
  decide

/-- R62: the value of GLYPHS, first, middle and last glyph. -/
theorem test_glyph_value :
    (State.reset.bytesAt 0 5, State.reset.bytesAt (5 * 8) 5, State.reset.bytesAt (5 * 15) 5) =
      ([0xF0, 0x90, 0x90, 0x90, 0xF0], [0xF0, 0x90, 0xF0, 0x90, 0xF0], [0xF0, 0x80, 0xF0, 0x80, 0x80]) := by decide

/-- V-K10, V-K11. -/
theorem test_setKey :
    (((State.reset.setKey 7 true).setKey 7 false).released, (State.reset.setKey 7 false).released) =
      (some 7, none) := by decide

/-- Writing what an unlisted address reads as removes the entry; order does not depend on the writes. -/
theorem test_memory_canonical :
    Memory.poke glyphTable (Memory.poke glyphTable [] 0x300 1) 0x300 0 = [] ∧ Memory.poke glyphTable [] 0x000 0xF0 = [] ∧
    Memory.poke glyphTable (Memory.poke glyphTable [] 0x301 2) 0x300 1 = Memory.poke glyphTable (Memory.poke glyphTable [] 0x300 1) 0x301 2 := by decide

/-! ## What meets the hypotheses of the statements -/

theorem witness_well_formed : (Instr.drw 15 15 15).wellFormed = true ∧ (Instr.sys 0xFFF).wellFormed = true := by decide

theorem witness_decodes : decodeWord 0xFF65 = .ok (.loadRegs 15) ∧ decodeWord 0x00E0 = .ok .cls ∧
    decodeWord 0x00EE = .ok .ret := by decide

theorem witness_illegal_words : decodeWord 0x5001 = .error .illegalFive ∧ decodeWord 0xFFFF = .error .illegalF := by
  decide

/-- Reset with the word of CLS where it fetches. -/
def clsNext : State := State.reset.withFetchWord 16 0x00E0

/-- `StepRunsTheDecodedInstruction`, the clause without a fault, at the highest pc too. -/
theorem witness_step_runs : clsNext.enabled = true ∧ clsNext.pc.toNat ≤ 0xFFE ∧
    decodeWord (wordOfBytes (clsNext.byteAt clsNext.pc.toNat) (clsNext.byteAt (clsNext.pc.toNat + 1))) =
      .ok .cls ∧
    ∃ t, exec .cls clsNext.sampleClock = .next t ∧ t.fault = none :=
  ⟨by decide, by decide, by decide, _, rfl, rfl⟩

/-- `StepRunsTheDecodedInstruction`, the clause with a fault; reset at the highest pc an instruction can have. -/
def lastPc : State := { State.reset with pc := 0xFFE }

theorem witness_step_faults : lastPc.enabled = true ∧ lastPc.pc.toNat ≤ 0xFFE ∧
    decodeWord (wordOfBytes (lastPc.byteAt lastPc.pc.toNat) (lastPc.byteAt (lastPc.pc.toNat + 1))) =
      .ok (.sys 0) ∧
    ∃ t, exec (.sys 0) lastPc.sampleClock = .next t ∧ t.fault ≠ none :=
  ⟨by decide, by decide, by decide, _, rfl, by simp [State.reset, lastPc, Cfg.initial, State.raise]⟩

theorem witness_disabled :
    ({ State.reset with loaded := false } : State).loaded = false ∧
    ({ State.reset with halted := true } : State).halted = true ∧
    (State.reset.raise (decodeFault 0 0)).fault ≠ none := by decide

theorem witness_fetch_beyond :
    (({ State.reset with pc := 0xFFF } : State).enabled = true ∧ 0xFFE < ({ State.reset with pc := 0xFFF } : State).pc.toNat) ∧
    (({ State.reset with pc := 0xFFFF } : State).enabled = true ∧
      0xFFE < ({ State.reset with pc := 0xFFFF } : State).pc.toNat) := by decide

/-- Reset with an illegal word where it fetches. -/
def illegalNext : State := State.reset.withFetchWord 16 0x8008

theorem witness_illegal_step : illegalNext.enabled = true ∧ illegalNext.pc.toNat ≤ 0xFFE ∧
    decodeWord (wordOfBytes (illegalNext.byteAt illegalNext.pc.toNat)
      (illegalNext.byteAt (illegalNext.pc.toNat + 1))) = .error .illegalEight := by decide

/-- Statements about every step that answers a next state, and `SoundFollowsTheTimer`. -/
theorem witness_step : clsNext.enabled = true ∧ ∃ t, step clsNext = .next t ∧ t.fault = none :=
  ⟨by decide, _, rfl, rfl⟩

/-- `FaultChangesNothingElse`: the empty image of reset decodes to SYS. -/
theorem witness_step_leaves_fault : State.reset.fault = none ∧ ∃ t, step State.reset = .next t ∧ t.fault ≠ none :=
  ⟨rfl, _, rfl, by decide⟩

/-- `PcAfterEveryInstruction`, both clauses. -/
theorem witness_pc_after : State.reset.fault = none ∧
    (∃ t, exec (.jp 0x228) State.reset = .next t ∧ t.fault = none) ∧
    ∃ t, exec (.sys 0) State.reset = .next t ∧ t.fault ≠ none :=
  ⟨rfl, ⟨_, rfl, rfl⟩, _, rfl, by decide⟩

/-- `WritersOfEachState`, `FlagRegisterWriters` and `TimersAreWritten`: JP is none of the writers, with or without the
options. -/
theorem witness_no_writer (cfg : Cfg) : ∃ t, exec (.jp 0x228) { State.reset with cfg := cfg } = .next t ∧
    (∀ x, Instr.jp 0x228 ≠ .storeRegs x) ∧ (∀ x y n, Instr.jp 0x228 ≠ .drw x y n) ∧
    (∀ x y, Instr.jp 0x228 ≠ .orReg x y) ∧ ∀ x, Instr.jp 0x228 ≠ .ldDtVx x :=
  ⟨_, rfl, by simp, by simp, by simp, by simp⟩

theorem witness_flag_writer : ∃ t, exec (.addReg 15 2) State.reset = .next t := ⟨_, rfl⟩

/-- `TimersAreWritten`, the clause on the host. -/
theorem witness_host_no_reset : ∃ t, State.reset.act .halt = .next t ∧
    (∀ image origin, HostOp.halt ≠ .load image origin) ∧ HostOp.halt ≠ .unload ∧ HostOp.halt ≠ .restart ∧
    HostOp.halt ≠ .tick := ⟨_, rfl, by simp, by simp, by simp, by simp⟩

/-- The invariant holds of a state that is not reset's. -/
theorem witness_inv : Inv clsNext where
  memory := by decide
  pointer := by decide
  entries := by decide
  delayStamp := by decide +kernel
  soundStamp := by decide +kernel
  drawStamp := by intro t h; simp [clsNext, State.withFetchWord, State.placeWord, State.reset] at h
  interval := by decide +kernel
  record := by intro r h; simp [clsNext, State.withFetchWord, State.placeWord] at h
  sound := by decide
  remembered := by intro p h; cases h; decide

/-- `HostKeepsTheInvariant`, with `witness_inv`, and the host's clause of `GlyphRegionNeverChanges`; `ReachableStatesMeetTheInvariant`. -/
theorem witness_host_step : ∃ t, clsNext.act (.setKey 3 true) = .next t := ⟨_, rfl⟩

theorem witness_reachable : Reachable (State.powerOn true Cfg.initial) :=
  Reachable.powerOn true Cfg.initial (by decide +kernel)

/-- CALL, RET and `ReturnAfterCallContinues` at both ends of the ring. -/
theorem witness_stack_pointer : State.reset.sp.toNat ≤ 15 ∧ ({ State.reset with sp := 15 } : State).sp.toNat ≤ 15 := by
  decide

/-- Options that select a clause, both ways. -/
theorem witness_options :
    Cfg.initial.jumpVx = false ∧ ({ Cfg.initial with jumpVx := true } : Cfg).jumpVx = true ∧
    Cfg.initial.logicClearsVf = false ∧ ({ Cfg.initial with logicClearsVf := true } : Cfg).logicClearsVf = true ∧
    Cfg.initial.sysPolicy = .fault ∧ ({ Cfg.initial with sysPolicy := .nop } : Cfg).sysPolicy = .nop := by decide

/-- `AddRegSumsAndCarries` and `SubtractionsSetNoBorrowFlag`, both flags at the boundary. -/
theorem witness_flags :
    255 < ((withRegs 0xFF 1 0).readV 1).toNat + ((withRegs 0xFF 1 0).readV 2).toNat ∧
    ¬ 255 < ((withRegs 0xFF 0 0).readV 1).toNat + ((withRegs 0xFF 0 0).readV 2).toNat ∧
    ((withRegs 5 5 0).readV 2).toNat ≤ ((withRegs 5 5 0).readV 1).toNat ∧
    ¬ ((withRegs 0 1 0).readV 2).toNat ≤ ((withRegs 0 1 0).readV 1).toNat := by decide

/-- `ShiftsByOnePlace`: 128 selected, shifted out to the left and not to the right. -/
theorem witness_shift : (128 : Nat) =
    (if (withRegs 128 1 0).cfg.shiftUsesVy then (withRegs 128 1 0).readV 2 else (withRegs 128 1 0).readV 1).toNat := by
  decide

/-- `DecimalDigitsAreStored`, `RegistersAreStored` and `RegistersAreLoaded` at both ends of their range. -/
theorem witness_stores :
    (Memory.wf ({ State.reset with i := 0x050 } : State).cfg.glyphs ({ State.reset with i := 0x050 } : State).mem ∧ 0x050 ≤ ({ State.reset with i := 0x050 } : State).i.toNat) ∧
    ({ State.reset with i := 0xFFD } : State).i.toNat + 2 ≤ 0xFFF ∧
    ({ State.reset with i := 0xFF0 } : State).i.toNat + (15 : Nibble).toNat ≤ 0xFFF := by decide

/-- `AccessesFaultWhole`, each clause at its boundary. -/
theorem witness_faults :
    0xFFF < ({ State.reset with i := 0xFFE } : State).i.toNat + 2 ∧
    ({ State.reset with i := 0x04F } : State).i.toNat ≤ 0x04F ∧
    0xFFF < ({ State.reset with i := 0xFF1 } : State).i.toNat + (15 : Nibble).toNat ∧
    (({ State.reset with i := 0xFFC } : State).drawLimited = false ∧ 1 ≤ (5 : Nibble).toNat ∧
      0x1000 < ({ State.reset with i := 0xFFC } : State).i.toNat + (5 : Nibble).toNat) := by decide

/-- Reset with two bytes of code in V[0] and V[1] and I above the glyph table. -/
def codeInRegs : State := { (State.reset.writeV 0 0x6A).writeV 1 0x55 with i := 0x20A }

theorem witness_stored_code : Memory.wf codeInRegs.cfg.glyphs codeInRegs.mem ∧ codeInRegs.fault = none ∧ 1 ≤ (1 : Nibble).toNat ∧
    ∃ t, exec (.storeRegs 1) codeInRegs = .next t ∧ t.fault = none :=
  ⟨by decide, rfl, by decide, _, rfl, rfl⟩

/-- `DrawTogglesCoveredPixels`: the last sprite in memory, and no sprite rows at all above it. -/
theorem witness_draw :
    (({ State.reset with i := 0xFFB } : State).drawLimited = false ∧
      ({ State.reset with i := 0xFFB } : State).i.toNat + (5 : Nibble).toNat ≤ 0x1000) ∧
    (0 : Nibble) = 0 := by decide

/-- Reset with one lit pixel at the top left, where glyph 0 at I = 0 covers it. -/
def litCorner : State := { State.reset with fb := State.reset.fb.set 0 0x8000000000000000 }

/-- `DrawTogglesCoveredPixels`: a covered pixel is lit, or none is. -/
theorem witness_collision :
    (∃ r c, pixel litCorner.fb r c = true ∧
      Covers litCorner (1 : Nibble).toNat ((litCorner.readV 0).toNat % 64) ((litCorner.readV 0).toNat % 32) r c) ∧
    ¬ ∃ r c, pixel State.reset.fb r c = true ∧
      Covers State.reset (1 : Nibble).toNat ((State.reset.readV 0).toNat % 64) ((State.reset.readV 0).toNat % 32) r c := by
  refine ⟨⟨0, 0, by decide, 0, 0, by decide, by decide, by decide, by decide⟩, ?_⟩
  rintro ⟨r, c, h, -⟩
  simp [pixel, State.reset] at h

/-- Reset after a performed draw at time 0, with an interval of one second. -/
def drawn (now : Time) : State :=
  { State.reset with lastDraw := some 0, now := now, cfg := { Cfg.initial with minDrawInterval := 1 } }

/-- `EarlyDrawIsSkipped`: too early, exactly in time, and no earlier draw. -/
theorem witness_rate :
    ((drawn (1 / 2)).lastDraw = some 0 ∧ (drawn (1 / 2)).now - 0 < (drawn (1 / 2)).cfg.minDrawInterval) ∧
    ((drawn 1).lastDraw = some 0 ∧ (drawn 1).cfg.minDrawInterval ≤ (drawn 1).now - 0) ∧
    State.reset.lastDraw = none := by decide +kernel

/-- `DrawingTwiceRestores`: glyph 0 at the top left, drawn at time 0 and again. -/
theorem witness_twice : State.reset.fault = none ∧ State.reset.drawLimited = false ∧
    ∃ t, exec (.drw 0 0 5) State.reset = .next t ∧ t.fault = none ∧
      ({ t with now := 1 } : State).drawLimited = false ∧
      (t.readV 0).toNat % 64 = (State.reset.readV 0).toNat % 64 ∧
      (t.readV 0).toNat % 32 = (State.reset.readV 0).toNat % 32 :=
  ⟨rfl, rfl, _, rfl, rfl, by decide +kernel, by decide, by decide⟩

/-- `TimerDecaysSixtyPerSecond`, each clause at a boundary, and `TimerNeverRises`. -/
theorem witness_timer :
    ((0 : Time) ≤ 1 / 120 ∧ (1 / 120 : Time) - 0 ≤ 1 / 120) ∧ (0 : Byte).toNat = 0 ∧
    ((2 * ((1 : Nat) : Rat) - 1) / 120 < (3 / 120 : Time) - 0 ∧ (3 / 120 : Time) - 0 ≤ (2 * ((1 : Nat) : Rat) + 1) / 120 ∧
      1 < (200 : Byte).toNat) ∧
    ((2 * (((60 : Byte).toNat : Nat) : Rat) - 1) / 120 < (1 : Time) - 0 ∧ 1 ≤ (60 : Byte).toNat) := by decide +kernel

/-- `KeyWaitTakesARelease`, both clauses. -/
theorem witness_release : ({ State.reset with released := some 7 } : State).released = some 7 ∧
    State.reset.released = none := by decide

/-- `LoadResetsTheMachine`, `RestartLoadsTheImageAgain`, `HaltSwitches` and `LoadThatDoesNotFitFaults` where they meet. -/
theorem witness_loads :
    (0xFFE : Word).toNat + ([0x60, 0x12] : List Byte).length ≤ 4096 ∧
    4096 < (0xFFF : Word).toNat + ([0x60, 0x12] : List Byte).length ∧
    ∃ t, State.reset.act (.load [0x60, 0x12] 0xFFE) = .next t ∧ ∃ u, runSteps 1 t = .next u :=
  ⟨by decide, by decide, _, rfl, _, rfl⟩

/-- `KeyInputRecordsReleases`: loaded and not, with and without a release. -/
theorem witness_keys : State.reset.loaded = true ∧ (State.powerOn true Cfg.initial).loaded = false ∧
    (withKeys 0).keyDown 10 = true ∧ ¬ ((withKeys 0).keyDown 9 = true ∧ false = false) := by decide

/-- `TickStopsAtAFault`: no steps, all steps, and a fault before the last. -/
theorem witness_tick : State.reset.enabled = true ∧
    ({ State.reset with cfg := { Cfg.initial with ipt := 0 } } : State).cfg.ipt = 0 ∧
    1 = State.reset.cfg.ipt ∧
    ∃ t, 1 ≤ ({ State.reset with cfg := { Cfg.initial with ipt := 3 } } : State).cfg.ipt ∧
      runSteps 1 { State.reset with cfg := { Cfg.initial with ipt := 3 } } = .next t ∧ t.fault ≠ none :=
  ⟨by decide, by decide, by decide, _, by decide, rfl, by decide⟩

end Sys2Proof.Tests
end

section
/-! SUPPORT. What instructions read and never write: the host's state and the clock (00_scope.md R7, R10). -/

namespace Sys2Proof.Machine

/-- The fields no instruction writes: those only the host writes (R7, R35, R38, R40, R41, R43), and the sample of the
clock with its count, taken before the instruction (R10, R122; log 3). -/
structure ReadOnlySame (s t : State) : Prop where
  cfg : t.cfg = s.cfg
  soundEnabled : t.soundEnabled = s.soundEnabled
  loaded : t.loaded = s.loaded
  halted : t.halted = s.halted
  key : t.key = s.key
  program : t.program = s.program
  now : t.now = s.now
  samples : t.samples = s.samples

/-- R206: what LD Vx, K can do: wait, or take the released key. -/
theorem execLdVxK_cases {x : Nibble} {s t : State} (h : execLdVxK x s = .next t) :
    (s.released = none ∧ t = s) ∨
      ∃ k, s.released = some k ∧ t = (s.clearReleased.writeV x (k.setWidth 8)).advance := by
  unfold execLdVxK at h
  cases h
  split <;> rename_i hk
  · exact .inr ⟨_, hk, rfl⟩
  · exact .inl ⟨hk, rfl⟩

/-- No instruction writes a read-only field. An instruction with more than one outcome goes through its inversion
lemma; each of the others is one composition of updates, whose field lemmas say it. -/
theorem exec_readOnlySame {i : Instr} {s t : State} (h : exec i s = .next t) : ReadOnlySame s t := by
  cases i
  case sys => obtain ⟨r, rfl⟩ | rfl := execSys_cases h <;> constructor <;> simp
  case drw =>
    obtain ⟨-, rfl⟩ | ⟨r, rfl⟩ | ⟨-, -, rfl⟩ := execDrw_cases h <;> constructor <;> simp [State.drawSprite]
  case ldVxK => obtain ⟨-, rfl⟩ | ⟨k, -, rfl⟩ := execLdVxK_cases h <;> constructor <;> simp
  case ldB => obtain ⟨r, rfl⟩ | ⟨-, -, rfl⟩ := execLdB_cases h <;> constructor <;> simp
  case storeRegs => obtain ⟨r, rfl⟩ | ⟨-, -, rfl⟩ := execStoreRegs_cases h <;> constructor <;> simp
  case loadRegs => obtain ⟨r, rfl⟩ | ⟨-, rfl⟩ := execLoadRegs_cases h <;> constructor <;> simp
  all_goals
    obtain rfl := Host.Outcome.next.inj h
    constructor <;> simp

/-- R126: the end of an instruction writes the sound output at most. -/
theorem State.endInstruction_cases (s : State) :
    s.endInstruction = s.reevaluateSound ∨ s.endInstruction = s := by
  unfold State.endInstruction
  split
  · exact .inl rfl
  · exact .inr rfl

theorem ReadOnlySame.endInstruction {s t : State} (h : ReadOnlySame s t) : ReadOnlySame s t.endInstruction := by
  obtain e | e := t.endInstruction_cases <;> rw [e]
  · exact { h with }
  · exact h

theorem State.raise_readOnlySame (s : State) (r : FaultRecord) : ReadOnlySame s (s.raise r) := by
  constructor <;> simp

/-- A step changes nothing on a disabled machine; on an enabled one the sample of the clock is all it does to the
read-only fields. -/
theorem step_readOnlySame {s t : State} (h : step s = .next t) :
    (s.enabled = false ∧ t = s) ∨ (s.enabled = true ∧ ReadOnlySame s.sampleClock t) := by
  obtain disabled | ⟨he, ⟨r, -, rfl⟩ | ⟨w, -, ⟨e, -, rfl⟩ | ⟨i, u, -, hu, rfl⟩⟩⟩ := step_cases h
  · exact .inl disabled
  · exact .inr ⟨he, s.sampleClock.raise_readOnlySame r⟩
  · exact .inr ⟨he, s.sampleClock.raise_readOnlySame _⟩
  · exact .inr ⟨he, (exec_readOnlySame hu).endInstruction⟩

/-- Settles O11: only the one sample of a step moves the clock, and a sample never moves it back. -/
theorem timeNeverDecreases : Obligations.TimeNeverDecreases := by
  unfold Obligations.TimeNeverDecreases
  refine ⟨fun s => ⟨s.sampleClock_now, rfl⟩, fun s t h => ?_⟩
  obtain ⟨-, rfl⟩ | ⟨-, same⟩ := step_readOnlySame h
  · exact le_rfl
  · rw [same.now]
    exact s.sampleClock_now

/-- Settles O15: no instruction writes the host's fields, and neither does the sample of the clock before it. -/
theorem programsNeverWriteHostState : Obligations.ProgramsNeverWriteHostState := by
  unfold Obligations.ProgramsNeverWriteHostState
  intro s t h
  obtain ⟨-, rfl⟩ | ⟨-, same⟩ := step_readOnlySame h
  · exact ⟨rfl, rfl, rfl, rfl, rfl, rfl⟩
  · exact ⟨same.cfg, same.soundEnabled, same.loaded, same.halted, same.key, same.program⟩

end Sys2Proof.Machine
end

section
/-! SUPPORT. What an instruction can do to each piece of state: its writers, and what they write (10_state.md R22 to R36,
20_memory.md R60, 40_execution_cycle.md R128). -/

namespace Sys2Proof.Machine

open Sys2Proof.Safety

/-- What `i` can do, from `s` to `t`, to every piece of state but the registers, pc, the fault record and the fields of
`ReadOnlySame`: leave it, or be one of the instructions that write it. -/
structure Effects (i : Instr) (s t : State) : Prop where
  stack : (t.sp = s.sp ∧ t.stack = s.stack) ∨
    (∃ nnn, i = .call nnn ∧ t.sp = (s.push s.pc).sp ∧ t.stack = (s.push s.pc).stack) ∨
    (i = .ret ∧ t.sp = s.pop.sp ∧ t.stack = s.stack)
  screen : (t.fb = s.fb ∧ t.lastDraw = s.lastDraw) ∨ (i = .cls ∧ t.lastDraw = s.lastDraw) ∨
    ∃ x y n, i = .drw x y n ∧ t.lastDraw = some s.now
  mem : t.mem = s.mem ∨ ∃ bytes, ((∃ x, i = .ldB x) ∨ ∃ x, i = .storeRegs x) ∧
    s.i.toNat + bytes.length ≤ Memory.size ∧ t.mem = (s.storeBytes s.i.toNat bytes).mem
  index : t.i = s.i ∨ (∃ nnn, i = .ldI nnn) ∨ (∃ x, i = .addI x) ∨ (∃ x, i = .ldF x) ∨
    (s.cfg.indexIncrement = true ∧ ((∃ x, i = .storeRegs x) ∨ ∃ x, i = .loadRegs x))
  released : t.released = s.released ∨ (∃ x, i = .ldVxK x) ∨
    (s.cfg.keyqueryConsumesRelease = true ∧ ((∃ x, i = .skp x) ∨ ∃ x, i = .sknp x))
  draws : t.draws = s.draws ∨ ∃ x nn, i = .rnd x nn
  dt : t.dt = s.dt ∨ ∃ x, i = .ldDtVx x ∧ t.dt = ⟨s.readV x, s.now⟩
  st : t.st = s.st ∨ ∃ x, i = .ldStVx x ∧ t.st = ⟨s.readV x, s.now⟩
  beep : t.beep = s.beep

/-- R225: an instruction that raises a fault leaves every one of these pieces. -/
theorem State.raise_effects (i : Instr) (s : State) (r : FaultRecord) : Effects i s (s.raise r) := by
  constructor <;> simp

/-- R186: I is advanced under the option alone. -/
theorem State.advanceI_i_cases (s : State) (x : Nibble) :
    (s.advanceI x).i = s.i ∨ s.cfg.indexIncrement = true := by
  rw [State.advanceI_i]
  split
  · exact .inr ‹_›
  · exact .inl rfl

/-- R207: a query of a key empties the slot under the option alone. -/
theorem State.queried_released_cases (s : State) :
    s.queried.released = s.released ∨ s.cfg.keyqueryConsumesRelease = true := by
  rw [State.queried_released]
  split
  · exact .inr ‹_›
  · exact .inl rfl

/-- Every instruction does to each piece of state what `Effects` says. An instruction with more than one outcome goes
through its inversion lemma; each of the others is one composition of updates, whose field lemmas say it. -/
theorem exec_effects {i : Instr} {s t : State} (h : exec i s = .next t) : Effects i s t := by
  cases i
  case sys =>
    obtain ⟨r, rfl⟩ | rfl := execSys_cases h
    · exact s.raise_effects _ r
    · constructor <;> simp
  case drw =>
    obtain ⟨-, rfl⟩ | ⟨r, rfl⟩ | ⟨-, -, rfl⟩ := execDrw_cases h
    · constructor <;> simp
    · exact s.raise_effects _ r
    · constructor <;> simp [State.drawSprite]
  case ldVxK =>
    obtain ⟨-, rfl⟩ | ⟨k, -, rfl⟩ := execLdVxK_cases h <;> constructor <;> simp
  case ldB x =>
    obtain ⟨r, rfl⟩ | ⟨fits, -, rfl⟩ := execLdB_cases h
    · exact s.raise_effects _ r
    · constructor
      case mem => exact .inr ⟨decimalDigits (s.readV x), .inl ⟨x, rfl⟩, fits, rfl⟩
      all_goals simp
  case storeRegs x =>
    obtain ⟨r, rfl⟩ | ⟨fits, -, rfl⟩ := execStoreRegs_cases h
    · exact s.raise_effects _ r
    · constructor
      case mem => exact .inr ⟨s.regBlock x, .inr ⟨x, rfl⟩, by simpa using fits, by simp⟩
      case index => simpa using (s.storeBytes s.i.toNat (s.regBlock x)).advanceI_i_cases x
      all_goals simp
  case loadRegs x =>
    obtain ⟨r, rfl⟩ | ⟨-, rfl⟩ := execLoadRegs_cases h
    · exact s.raise_effects _ r
    · constructor
      case index => simpa using (s.writeRegBlock (s.bytesAt s.i.toNat (x.toNat + 1))).advanceI_i_cases x
      all_goals simp
  all_goals obtain rfl := Host.Outcome.next.inj h
  case skp | sknp =>
    constructor
    case released => simpa using s.queried_released_cases
    all_goals simp
  all_goals constructor <;> simp

/-- Settles O17: each piece of state is as before, or the instruction is one that `Effects` names for it. -/
theorem writersOfEachState : Obligations.WritersOfEachState := by
  unfold Obligations.WritersOfEachState
  intro i s t h
  have effects := exec_effects h
  have same := exec_readOnlySame h
  refine ⟨fun notCall notRet => ?_, fun notCls notDrw => ?_, fun notLdB notStore => ?_,
    fun notLdI notAddI notLdF notBlock => ?_, fun notLdK notQuery => ?_, fun notRnd => ?_⟩
  · obtain ⟨hsp, hstack⟩ | ⟨nnn, hi, -⟩ | ⟨hi, -⟩ := effects.stack
    · exact ⟨hsp, fun k => by simp only [State.readSlot, hstack]⟩
    · exact absurd hi (notCall nnn)
    · exact absurd hi notRet
  · obtain screen | ⟨hi, -⟩ | ⟨x, y, n, hi, -⟩ := effects.screen
    · exact screen
    · exact absurd hi notCls
    · exact absurd hi (notDrw x y n)
  · obtain hmem | ⟨_, ⟨x, hi⟩ | ⟨x, hi⟩, -⟩ := effects.mem
    · exact fun a => by simp only [State.byteAt, hmem, same.cfg]
    · exact absurd hi (notLdB x)
    · exact absurd hi (notStore x)
  · obtain hindex | ⟨nnn, hi⟩ | ⟨x, hi⟩ | ⟨x, hi⟩ | ⟨option, ⟨x, hi⟩ | ⟨x, hi⟩⟩ := effects.index
    · exact hindex
    · exact absurd hi (notLdI nnn)
    · exact absurd hi (notAddI x)
    · exact absurd hi (notLdF x)
    · exact absurd hi ((notBlock option).1 x)
    · exact absurd hi ((notBlock option).2 x)
  · obtain slot | ⟨x, hi⟩ | ⟨option, ⟨x, hi⟩ | ⟨x, hi⟩⟩ := effects.released
    · exact ⟨same.key, slot⟩
    · exact absurd hi (notLdK x)
    · exact absurd hi ((notQuery option).1 x)
    · exact absurd hi ((notQuery option).2 x)
  · obtain hdraws | ⟨x, nn, hi⟩ := effects.draws
    · exact ⟨same.now, same.samples, hdraws⟩
    · exact absurd hi (notRnd x nn)

end Sys2Proof.Machine
end

section
/-! SUPPORT. The invariant of 10_state.md R45: the fault records an instruction can leave, and that each operation keeps
it. -/

namespace Sys2Proof.Safety

open Sys2Proof.Machine

/-! ## The records of the fault table (60_exceptions.md R220, R224) -/

theorem legalFault_decodeFault (w pc : Word) : legalFault (decodeFault w pc) :=
  .inr (.inl ⟨rfl, rfl, by simp [decodeFault]⟩)

theorem legalFault_outOfRange (word : Option Word) {a : Nat} (above : 0x1000 ≤ a) (small : a < 65536) :
    legalFault (addressFault .outOfRange word a) := by
  refine .inr (.inr (.inl ⟨rfl, rfl, ?_⟩))
  simp only [addressFault, BitVec.toNat_ofNat]
  omega

theorem legalFault_glyphWrite (w : Word) {a : Nat} (inGlyphs : a < Memory.glyphEnd) :
    legalFault (addressFault .glyphWrite (some w) a) := by
  refine .inr (.inr (.inr ⟨rfl, rfl, by simp [addressFault], ?_⟩))
  simp only [Memory.glyphEnd] at inGlyphs
  simp only [addressFault, BitVec.toNat_ofNat]
  omega

/-- R71: the lowest address out of range that an access through a 16-bit register reports. -/
theorem legalFault_beyondMemory (w a : Word) :
    legalFault (addressFault .outOfRange (some w) (max a.toNat Memory.size)) := by
  have := a.isLt
  refine legalFault_outOfRange (some w) (le_max_right _ _) ?_
  simp only [Memory.size]
  omega

theorem legalFault_of_fetch {s : State} {r : FaultRecord} (h : s.fetch = .error r) : legalFault r := by
  have := s.pc.isLt
  rw [State.fetch_eq] at h
  split at h <;> cases h
  refine legalFault_outOfRange none ?_ ?_ <;> rw [fetchFaultAddress_eq] <;> split <;> omega

theorem legalFault_of_storeAtI {s : State} {w : Word} {bytes : List Byte} {r : FaultRecord} (hb : bytes ≠ [])
    (h : s.storeAtI w bytes = .error r) : legalFault r := by
  rw [State.storeAtI_eq s w bytes hb] at h
  split at h
  · cases h; exact legalFault_beyondMemory w s.i
  · split at h <;> cases h
    exact legalFault_glyphWrite w ‹_›

theorem legalFault_of_loadAtI {s : State} {w : Word} {n : Nat} {r : FaultRecord}
    (h : s.loadAtI w n = .error r) : legalFault r := by
  rw [State.loadAtI_eq] at h
  split at h <;> cases h
  exact legalFault_beyondMemory w s.i

/-- R225, R226: what a checked access leaves in the record, when its own faults are legal and what follows it raises
none. -/
theorem fault_of_orRaise {α : Type} {s t : State} {e : Except FaultRecord α} {f : α → State}
    (h : s.orRaise (e.map f) = .next t) (legal : ∀ r, e = .error r → legalFault r)
    (keeps : ∀ a, e = .ok a → (f a).fault = s.fault) :
    t.fault = s.fault ∨ ∃ r, legalFault r ∧ t.fault = some r := by
  cases e with
  | ok a => cases h; exact .inl (keeps a rfl)
  | error r => cases h; exact .inr ⟨r, legal r rfl, rfl⟩

/-- R66, R67: a checked store that succeeds leaves the record. -/
theorem fault_of_storeAtI {s t : State} {w : Word} {bytes : List Byte} (hb : bytes ≠ [])
    (h : s.storeAtI w bytes = .ok t) : t.fault = s.fault := by
  obtain ⟨r, hr, -⟩ | ⟨-, -, hr⟩ := s.storeAtI_cases w bytes hb <;> rw [hr] at h <;> cases h
  rfl

/-- R141: what SYS leaves in the record. -/
theorem execSys_fault {nnn : Addr12} {s t : State} (h : execSys nnn s = .next t) :
    t.fault = s.fault ∨ ∃ r, legalFault r ∧ t.fault = some r := by
  unfold execSys at h
  cases h
  cases s.cfg.sysPolicy with
  | fault => exact .inr ⟨_, legalFault_decodeFault _ _, rfl⟩
  | nop => exact .inl rfl

/-- R191, R192: what DRW leaves in the record, skipped or not. -/
theorem execDrw_fault {x y n : Nibble} {s t : State} (h : execDrw x y n s = .next t) :
    t.fault = s.fault ∨ ∃ r, legalFault r ∧ t.fault = some r := by
  unfold execDrw at h
  split at h
  · cases h; exact .inl rfl
  · exact fault_of_orRaise h (fun _ => legalFault_of_loadAtI) fun _ _ => rfl

/-- R220: an instruction leaves the fault record, or writes one of the fault table. -/
theorem exec_fault {i : Instr} {s t : State} (h : exec i s = .next t) :
    t.fault = s.fault ∨ ∃ r, legalFault r ∧ t.fault = some r := by
  cases i
  case sys => exact execSys_fault h
  case drw => exact execDrw_fault h
  case ldVxK => obtain ⟨-, rfl⟩ | ⟨k, -, rfl⟩ := execLdVxK_cases h <;> simp
  case ldB =>
    exact fault_of_orRaise h (fun _ => legalFault_of_storeAtI (by simp [decimalDigits]))
      fun _ => fault_of_storeAtI (by simp [decimalDigits])
  case storeRegs =>
    exact fault_of_orRaise h (fun _ => legalFault_of_storeAtI (by simp [State.regBlock]))
      fun _ hok => by simpa using fault_of_storeAtI (by simp [State.regBlock]) hok
  case loadRegs =>
    exact fault_of_orRaise h (fun _ => legalFault_of_loadAtI) fun _ _ => by simp
  all_goals
    obtain rfl := Host.Outcome.next.inj h
    simp

/-! ## Steps -/

variable {s t : State}

/-- R25, R26: a push of an address an instruction can be fetched from keeps every stack entry one. -/
theorem push_entries {a : Word} (ha : a.toNat ≤ 0xFFE) (h : ∀ k : Fin 16, s.stack[k].toNat ≤ 0xFFE) (k : Fin 16) :
    (s.push a).stack[k].toNat ≤ 0xFFE := by
  simp only [State.push, Fin.getElem_fin, Vector.getElem_set]
  split
  · exact ha
  · exact h k

theorem toNat_mod_sixteen_le (b : Byte) : (b % 16).toNat ≤ 15 := by
  rw [BitVec.toNat_umod]
  exact Nat.le_of_lt_succ (Nat.mod_lt _ (by decide))

theorem Inv.raise (h : Inv s) {r : FaultRecord} (hr : legalFault r) : Inv (s.raise r) :=
  { h with record := by rintro _ ⟨⟩; exact hr }

/-- R10: a later `now` keeps every stamp in the past. -/
theorem Inv.sampleClock (h : Inv s) : Inv s.sampleClock :=
  have later := s.sampleClock_now
  { h with
    delayStamp := ⟨h.delayStamp.1, h.delayStamp.2.trans later⟩
    soundStamp := ⟨h.soundStamp.1, h.soundStamp.2.trans later⟩
    drawStamp := fun t ht => ⟨(h.drawStamp t ht).1, (h.drawStamp t ht).2.trans later⟩ }

/-- R126: the sound re-evaluation sounds the tone only while sound is enabled. -/
theorem Inv.endInstruction (h : Inv s) : Inv s.endInstruction := by
  obtain e | e := s.endInstruction_cases <;> rw [e]
  · exact { h with sound := fun hb => (Bool.and_eq_true_iff.1 hb).1 }
  · exact h

/-- R10: time is not negative, since a stamp is not. -/
theorem Inv.now_nonneg (h : Inv s) : 0 ≤ s.now := h.delayStamp.1.trans h.delayStamp.2

/-- An instruction fetched from inside memory keeps the invariant: each field by what `Effects` lets it do to the piece
of state the field speaks of. -/
theorem Inv.exec {i : Instr} (h : Inv s) (hpc : s.pc.toNat ≤ 0xFFE) (he : exec i s = .next t) : Inv t := by
  have effects := exec_effects he
  have same := exec_readOnlySame he
  constructor
  case memory =>
    rw [same.cfg]
    obtain e | ⟨bytes, -, fits, e⟩ := effects.mem <;> rw [e]
    · exact h.memory
    · exact s.storeBytes_wf _ bytes h.memory fits
  case pointer =>
    obtain ⟨e, -⟩ | ⟨nnn, -, e, -⟩ | ⟨-, e, -⟩ := effects.stack <;> rw [e]
    · exact h.pointer
    · exact toNat_mod_sixteen_le _
    · exact toNat_mod_sixteen_le _
  case entries =>
    obtain ⟨-, e⟩ | ⟨nnn, -, -, e⟩ | ⟨-, -, e⟩ := effects.stack <;> rw [e]
    · exact h.entries
    · exact push_entries hpc h.entries
    · exact h.entries
  case delayStamp =>
    rw [same.now]
    obtain e | ⟨x, -, e⟩ := effects.dt <;> rw [e]
    · exact h.delayStamp
    · exact ⟨h.now_nonneg, le_rfl⟩
  case soundStamp =>
    rw [same.now]
    obtain e | ⟨x, -, e⟩ := effects.st <;> rw [e]
    · exact h.soundStamp
    · exact ⟨h.now_nonneg, le_rfl⟩
  case drawStamp =>
    rw [same.now]
    obtain ⟨-, e⟩ | ⟨-, e⟩ | ⟨x, y, n, -, e⟩ := effects.screen <;> rw [e]
    · exact h.drawStamp
    · exact h.drawStamp
    · rintro _ ⟨⟩
      exact ⟨h.now_nonneg, le_rfl⟩
  case interval => rw [same.cfg]; exact h.interval
  case record =>
    obtain e | ⟨r, legal, e⟩ := exec_fault he <;> rw [e]
    · exact h.record
    · rintro _ ⟨⟩
      exact legal
  case sound => rw [effects.beep, same.soundEnabled]; exact h.sound
  case remembered => rw [same.program]; exact h.remembered

/-- R64: a fetch that succeeds is from at most 0xFFE. -/
theorem pc_of_fetch {w : Word} (h : s.fetch = .ok w) : s.pc.toNat ≤ 0xFFE := by
  rw [State.fetch_eq] at h
  split at h
  · assumption
  · cases h

theorem Inv.step (h : Inv s) (hs : step s = .next t) : Inv t := by
  obtain ⟨-, rfl⟩ | ⟨-, ⟨r, hr, rfl⟩ | ⟨w, hw, ⟨e, -, rfl⟩ | ⟨i, u, -, hu, rfl⟩⟩⟩ := step_cases hs
  · exact h
  · exact h.sampleClock.raise (legalFault_of_fetch hr)
  · exact h.sampleClock.raise (legalFault_decodeFault w s.pc)
  · exact (h.sampleClock.exec (pc_of_fetch hw) hu).endInstruction

/-- Settles O20: the clock sample, a fault entry, an instruction and its end each keep the invariant. -/
theorem stepKeepsTheInvariant : Obligations.StepKeepsTheInvariant := by
  unfold Obligations.StepKeepsTheInvariant
  intro s t h hs
  exact h.step hs

/-! ## The host -/

/-- R121: the steps of a tick keep the invariant, since each of them does. -/
theorem Inv.runSteps {n : Nat} (h : Inv s) (hr : runSteps n s = .next t) : Inv t := by
  induction n generalizing s with
  | zero => cases hr; exact h
  | succ n ih =>
    unfold Machine.runSteps at hr
    split at hr
    · exact ih (h.step ‹_›) hr
    · cases hr
    · cases hr

theorem Inv.tick (h : Inv s) (ht : s.tick = .next t) : Inv t := by
  unfold State.tick at ht
  split at ht
  · exact h.runSteps ht
  · cases ht; exact h

/-- R256: the unloaded state meets the invariant; of the state before it reads the time, the configuration and the
remembered image alone. -/
theorem inv_unloaded (time : 0 ≤ s.now) (interval : 0 ≤ s.cfg.minDrawInterval)
    (remembered : ∀ p, s.program = some p → p.origin.toNat + p.image.length ≤ Memory.size) : Inv s.unloaded where
  memory := Memory.nil_wf _
  pointer := Nat.zero_le 15
  entries := fun k => by simp [State.unloaded, State.reset]
  delayStamp := ⟨time, le_rfl⟩
  soundStamp := ⟨time, le_rfl⟩
  drawStamp := nofun
  interval := interval
  record := nofun
  sound := nofun
  remembered := remembered

theorem Inv.unloaded (h : Inv s) : Inv s.unloaded := inv_unloaded h.now_nonneg h.interval h.remembered

/-- R250, R251: a load leaves the unloaded state with a ConfigFault, or with an image that fits. -/
theorem Inv.load (h : Inv s) (image : List Byte) (origin : Word) : Inv (s.load image origin) := by
  have fresh : Inv s.sampleClock.unloaded := h.sampleClock.unloaded
  unfold State.load
  split <;> rename_i hfit
  · exact fresh.raise (.inl ⟨rfl, rfl, rfl⟩)
  · have fits : origin.toNat + image.length ≤ Memory.size := by simpa [overflows] using hfit
    exact { fresh with
      memory := State.storeBytes_wf _ _ image fresh.memory fits
      remembered := by rintro _ ⟨⟩; exact fits }

/-- R255. -/
theorem Inv.restart (h : Inv s) : Inv s.restart := by
  unfold State.restart
  split
  · exact h.load _ _
  · exact h

/-- R239: an option of the record is neither GLYPHS nor the interval. -/
theorem setQuirkIn_keeps (c : Cfg) (b : Bool) (q : Quirk) :
    (setQuirkIn c b q).glyphs = c.glyphs ∧ (setQuirkIn c b q).minDrawInterval = c.minDrawInterval := by
  cases q <;> exact ⟨rfl, rfl⟩

theorem Inv.setQuirk (h : Inv s) (q : Quirk) (b : Bool) : Inv (s.setQuirk q b) := by
  obtain ⟨glyphs, interval⟩ := setQuirkIn_keeps s.cfg b q
  exact { h with
    memory := by simpa only [State.setQuirk, glyphs] using h.memory
    interval := by simpa only [State.setQuirk, interval] using h.interval }

theorem Inv.setKey (h : Inv s) (k : Nibble) (down : Bool) : Inv (s.setKey k down) := by
  unfold State.setKey
  split
  · exact { h with }
  · exact h

/-- R233: the load and the tick have their own lemmas; a setting writes what the invariant does not speak of, or keeps
the one field it does. -/
theorem Inv.act {op : HostOp} (h : Inv s) (ha : s.act op = .next t) : Inv t := by
  cases op
  case tick => exact h.tick ha
  all_goals obtain rfl := Host.Outcome.next.inj ha
  case load image origin => exact h.load image origin
  case unload => exact h.sampleClock.unloaded
  case restart => exact h.restart
  case halt | resume | toggleHalt => exact { h with }
  case setIpt | setSysPolicy => exact { h with }
  case setMinDrawInterval q => exact { h with interval := NNRat.coe_nonneg q }
  case setQuirk q b => exact h.setQuirk q b
  case setKey k down => exact h.setKey k down
  case setSoundEnabled b => exact { h with sound := fun hb => (Bool.and_eq_true_iff.1 hb).2 }

/-- Settles O21: `Inv.act`, an operation at a time. -/
theorem hostKeepsTheInvariant : Obligations.HostKeepsTheInvariant := by
  unfold Obligations.HostKeepsTheInvariant
  intro s t op h ha
  exact h.act ha

/-! ## Reset, power-on and what they lead to -/

/-- R256: power-on is the unloaded state at time 0 of a machine that remembers no image. -/
theorem inv_powerOn (sound : Bool) (cfg : Cfg) (interval : 0 ≤ cfg.minDrawInterval) :
    Inv (State.powerOn sound cfg) :=
  inv_unloaded (s := State.powerOn sound cfg) le_rfl interval nofun

/-- Settles O19: reset is the load of an image of no bytes (log 5), so it is an unloaded state but for pc, `loaded` and the
remembered image. -/
theorem resetMeetsTheInvariant : Obligations.ResetMeetsTheInvariant := by
  unfold Obligations.ResetMeetsTheInvariant
  have image : ∀ p, State.reset.program = some p → p.origin.toNat + p.image.length ≤ Memory.size := by
    rintro _ ⟨⟩
    decide
  exact { inv_unloaded (s := State.reset) le_rfl le_rfl image with }

/-- Settles O22: the invariant holds at power-on and at reset, and steps and host operations keep it. -/
theorem reachableStatesMeetTheInvariant : Obligations.ReachableStatesMeetTheInvariant := by
  unfold Obligations.ReachableStatesMeetTheInvariant
  intro s reachable
  induction reachable with
  | powerOn sound cfg interval => exact inv_powerOn sound cfg interval
  | reset => exact resetMeetsTheInvariant
  | step s t _ hs ih => exact ih.step hs
  | act s t op _ ha ih => exact ih.act ha

end Sys2Proof.Safety
end

section
/-! SUPPORT. The flag register VF (10_state.md R21, 42_alu.md R160). -/

namespace Sys2Proof.Machine

variable {s : State} {x y : Nibble} {b : Byte} {c : Bool}

/-- R21: a flag is 0 or 1. -/
theorem flagByte_eq_zero_or_one (c : Bool) : flagByte c = 0 ∨ flagByte c = 1 := by
  cases c
  · exact .inl rfl
  · exact .inr rfl

/-- R160: after a result and a flag, VF is the flag, whatever the target. -/
theorem State.readV_writeResultFlag_regF : (s.writeResultFlag x b c).readV regF = flagByte c := by
  rw [State.readV_writeResultFlag, if_pos rfl]

/-- R21: a write of another register leaves VF. -/
theorem State.readV_regF_writeV (h : x ≠ regF) : (s.writeV x b).readV regF = s.readV regF :=
  s.readV_writeV_other x regF b h.symm

/-- R164 to R166: without the option, a logic operation leaves VF unless it is the target. -/
theorem State.readV_regF_logicFlag (hx : x ≠ regF) (option : s.cfg.logicClearsVf ≠ true) :
    ((s.writeV x b).logicFlag).readV regF = s.readV regF := by
  rw [State.readV_logicFlag, if_neg fun e => option e.2]
  exact State.readV_regF_writeV hx

/-- R186: a block load that stops before register 15 leaves VF. -/
theorem State.readV_regF_writeRegBlock {bytes : List Byte} (h : bytes.length ≤ 15) :
    (s.writeRegBlock bytes).readV regF = s.readV regF := by
  rw [State.readV_writeRegBlock]
  exact List.getD_eq_default _ _ h

theorem toNat_lt_of_ne_regF (h : x ≠ regF) : x.toNat < 15 := by
  have : x.toNat ≠ 15 := fun e => h (BitVec.eq_of_toNat_eq e)
  have := x.isLt
  omega

/-- R21: the first clause of `FlagRegisterWriters`: who leaves VF. -/
theorem exec_keeps_regF {i : Instr} {t : State} (h : exec i s = .next t)
    (notArith : ∀ x y, i ≠ .addReg x y ∧ i ≠ .sub x y ∧ i ≠ .subn x y ∧ i ≠ .shr x y ∧ i ≠ .shl x y)
    (notLogic : s.cfg.logicClearsVf = true → ∀ x y, i ≠ .orReg x y ∧ i ≠ .andReg x y ∧ i ≠ .xorReg x y)
    (notDrw : ∀ x y n, i ≠ .drw x y n)
    (notTarget : ∀ y nn, i ≠ .ldByte regF nn ∧ i ≠ .addByte regF nn ∧ i ≠ .ldReg regF y ∧ i ≠ .orReg regF y ∧
      i ≠ .andReg regF y ∧ i ≠ .xorReg regF y ∧ i ≠ .rnd regF nn)
    (notLdDt : i ≠ .ldVxDt regF) (notLdK : i ≠ .ldVxK regF) (notLoad : i ≠ .loadRegs regF) :
    t.readV regF = s.readV regF := by
  cases i
  case addReg x y | sub x y | subn x y | shr x y | shl x y => simpa using notArith x y
  case drw x y n => exact absurd rfl (notDrw x y n)
  case orReg x y | andReg x y | xorReg x y =>
    obtain rfl := Host.Outcome.next.inj h
    have option : s.cfg.logicClearsVf ≠ true := fun on => by simpa using notLogic on x y
    have hx : x ≠ regF := by rintro rfl; simpa using notTarget y 0
    exact State.readV_regF_logicFlag hx option
  case ldByte x _ | addByte x _ | rnd x _ =>
    obtain rfl := Host.Outcome.next.inj h
    have hx : x ≠ regF := by rintro rfl; simpa using notTarget 0
    exact State.readV_regF_writeV hx
  case ldReg x y =>
    obtain rfl := Host.Outcome.next.inj h
    have hx : x ≠ regF := by rintro rfl; simpa using notTarget y 0
    exact State.readV_regF_writeV hx
  case ldVxDt x =>
    obtain rfl := Host.Outcome.next.inj h
    exact State.readV_regF_writeV fun e => notLdDt (e ▸ rfl)
  case ldVxK x =>
    obtain ⟨-, rfl⟩ | ⟨k, -, rfl⟩ := execLdVxK_cases h
    · rfl
    · exact State.readV_regF_writeV fun e => notLdK (e ▸ rfl)
  case loadRegs x =>
    obtain ⟨r, rfl⟩ | ⟨-, rfl⟩ := execLoadRegs_cases h
    · rfl
    · have hx := toNat_lt_of_ne_regF fun e => notLoad (e ▸ rfl)
      simpa using State.readV_regF_writeRegBlock (by simpa using hx)
  case cls => cases h; rfl
  case sys => obtain ⟨r, rfl⟩ | rfl := execSys_cases h <;> simp
  case ldB => obtain ⟨r, rfl⟩ | ⟨-, -, rfl⟩ := execLdB_cases h <;> simp
  case storeRegs => obtain ⟨r, rfl⟩ | ⟨-, -, rfl⟩ := execStoreRegs_cases h <;> simp
  all_goals
    obtain rfl := Host.Outcome.next.inj h
    simp

/-- R167 to R171: an arithmetic or shift instruction ends by writing a flag to VF. -/
theorem exec_flagByte {i : Instr} {t : State} (h : exec i s = .next t)
    (arith : ∃ x y, i = .addReg x y ∨ i = .sub x y ∨ i = .subn x y ∨ i = .shr x y ∨ i = .shl x y) :
    ∃ c, t.readV regF = flagByte c := by
  obtain ⟨x, y, rfl | rfl | rfl | rfl | rfl⟩ := arith <;> obtain rfl := Host.Outcome.next.inj h <;>
    exact ⟨_, State.readV_writeResultFlag_regF⟩

/-- Settles O18: the writers of VF by cases on the instruction, and a flag is 0 or 1. -/
theorem flagRegisterWriters : Obligations.FlagRegisterWriters := by
  unfold Obligations.FlagRegisterWriters
  refine fun i s t h => ⟨exec_keeps_regF h, fun arith => ?_⟩
  obtain ⟨c, hc⟩ := exec_flagByte h arith
  rw [hc]
  exact flagByte_eq_zero_or_one c

end Sys2Proof.Machine
end

section
/-! SUPPORT. The timers (10_state.md R29 to R32). -/

namespace Sys2Proof.Machine

/-- R30: of the operations of the host, those that are neither a reset nor the tick write no timer. -/
theorem act_keeps_timers {op : HostOp} {s t : State} (h : s.act op = .next t)
    (notLoad : ∀ image origin, op ≠ .load image origin) (notUnload : op ≠ .unload) (notRestart : op ≠ .restart)
    (notTick : op ≠ .tick) : t.dt = s.dt ∧ t.st = s.st := by
  cases op
  case load image origin => exact absurd rfl (notLoad image origin)
  case unload => exact absurd rfl notUnload
  case restart => exact absurd rfl notRestart
  case tick => exact absurd rfl notTick
  all_goals obtain rfl := Host.Outcome.next.inj h
  case setKey =>
    unfold State.setKey
    split <;> exact ⟨rfl, rfl⟩
  all_goals exact ⟨rfl, rfl⟩

/-- Settles O48: the two writers by their meanings, the other instructions by `Effects`, the host by its operations. -/
theorem timersAreWritten : Obligations.TimersAreWritten := by
  unfold Obligations.TimersAreWritten
  refine ⟨fun s x => ⟨rfl, rfl⟩, fun i s t h => ⟨fun notDt => ?_, fun notSt => ?_⟩,
    fun op s t h => act_keeps_timers h⟩
  · exact (exec_effects h).dt.resolve_right fun ⟨x, hi, _⟩ => notDt x hi
  · exact (exec_effects h).st.resolve_right fun ⟨x, hi, _⟩ => notSt x hi

/-! ## What a read returns -/

variable {t : Timer} {now : Time}

/-- R31: a read as an integer: the rounded rest, clamped. -/
theorem Timer.toNat_read (t : Timer) (now : Time) :
    ((t.read now).toNat : Int) = min 255 (max 0 (roundHalfUp (t.remaining now))) := by
  simp only [Timer.read, BitVec.toNat_ofNat]
  omega

/-- The model's rounding is Mathlib's floor of the number and one half. -/
theorem roundHalfUp_eq_floor (q : Rat) : roundHalfUp q = ⌊q + 1 / 2⌋ := rfl

/-- R31, D2: a number rounds to `n` when it is at least `n - 1/2` and below `n + 1/2`. -/
theorem roundHalfUp_eq {q : Rat} {n : Int} (low : (n : Rat) - 1 / 2 ≤ q) (high : q < n + 1 / 2) :
    roundHalfUp q = n := by
  rw [roundHalfUp_eq_floor, Int.floor_eq_iff]
  constructor <;> linarith

theorem roundHalfUp_mono {p q : Rat} (h : p ≤ q) : roundHalfUp p ≤ roundHalfUp q := by
  rw [roundHalfUp_eq_floor, roundHalfUp_eq_floor]
  gcongr

/-- R31: a rest that rounds to a byte value reads as that value. -/
theorem Timer.read_eq {n : Nat} (byte : n ≤ 255) (low : (n : Rat) - 1 / 2 ≤ t.remaining now)
    (high : t.remaining now < n + 1 / 2) : (t.read now).toNat = n := by
  have hread := t.toNat_read now
  rw [roundHalfUp_eq (n := n) (by exact_mod_cast low) (by exact_mod_cast high)] at hread
  omega

/-- R31: a rest below one half, negative ones among them, reads 0. -/
theorem Timer.read_eq_zero (h : t.remaining now < 1 / 2) : t.read now = 0 := by
  have hround : roundHalfUp (t.remaining now) < 1 := by
    rw [roundHalfUp_eq_floor, Int.floor_lt]
    push_cast
    linarith
  have hread := t.toNat_read now
  exact BitVec.eq_of_toNat_eq (show (t.read now).toNat = 0 by omega)

/-- Settles O49: each interval of R31 puts the rest within one half of the value read. -/
theorem timerDecaysSixtyPerSecond : Obligations.TimerDecaysSixtyPerSecond := by
  unfold Obligations.TimerDecaysSixtyPerSecond
  intro t now written
  have byte := t.val.isLt
  have rest : t.remaining now = (t.val.toNat : Rat) - 60 * (now - t.stamp) := rfl
  refine ⟨fun zero => ?_, fun early => ?_, fun k _ below after upTo => ?_, fun after _ => ?_⟩
  · rw [zero] at rest
    refine Timer.read_eq_zero ?_
    push_cast at rest
    linarith
  · refine BitVec.eq_of_toNat_eq (Timer.read_eq (by omega) ?_ ?_) <;> linarith
  · refine Timer.read_eq (by omega) ?_ ?_ <;> rw [Nat.cast_sub below.le] <;> linarith
  · refine Timer.read_eq_zero ?_
    linarith

/-- Settles O50: the rest falls with time, and rounding and clamping keep the order. -/
theorem timerNeverRises : Obligations.TimerNeverRises := by
  unfold Obligations.TimerNeverRises
  intro t now later order
  have rest : t.remaining later ≤ t.remaining now := by
    unfold Timer.remaining
    linarith
  have rounded := roundHalfUp_mono rest
  have hnow := t.toNat_read now
  have hlater := t.toNat_read later
  omega

end Sys2Proof.Machine
end

section
/-! SUPPORT. The state right after reset (10_state.md R46). -/

namespace Sys2Proof.Machine

open Sys2Proof.Safety

/-- R61: memory that lists nothing reads as GLYPHS and then zeros. -/
theorem Memory.unlisted_eq_getD (g : Glyphs) (a : Nat) : Memory.unlisted g a = g.toList.getD a 0 := by
  unfold Memory.unlisted
  split <;> rename_i h
  · simp [h]
  · simp [Nat.not_lt.1 h]

/-- R46 (D15, D22, D23): every piece of state but memory and pc. -/
theorem freshState_reset : FreshState State.reset := by
  refine ⟨fun r => ?_, rfl, rfl, fun k => ?_, rfl, rfl, fun r c => ?_, fun k => ?_, rfl, rfl, rfl, rfl⟩
  · simp [State.readV, State.reset]
  · simp [State.readSlot, State.reset]
  · simp [pixel, State.reset]
  · simp [State.keyDown, State.reset]

/-- Settles O53: the fields of `State.reset`, and its memory lists nothing. -/
theorem resetValues : Obligations.ResetValues := by
  unfold Obligations.ResetValues
  exact ⟨freshState_reset, rfl, rfl, rfl, fun a => Memory.unlisted_eq_getD _ a⟩

end Sys2Proof.Machine
end

section
/-! SUPPORT. The glyph region (20_memory.md R67): no instruction stores into it, and GLYPHS stays. -/

namespace Sys2Proof.Machine

open Sys2Proof.Safety

/-- R67: the two instructions that store check the glyph region first, and no other writes memory. -/
theorem exec_keeps_glyphRegion {i : Instr} {s t : State} (h : exec i s = .next t) {a : Nat}
    (inGlyphs : a < Memory.glyphEnd) : t.byteAt a = s.byteAt a := by
  obtain ⟨-, -, memSame, -⟩ := writersOfEachState i s t h
  cases i
  case ldB =>
    obtain ⟨r, rfl⟩ | ⟨-, above, rfl⟩ := execLdB_cases h
    · simp
    · simpa using s.byteAt_storeBytes_other _ _ a (.inl (inGlyphs.trans_le above))
  case storeRegs =>
    obtain ⟨r, rfl⟩ | ⟨-, above, rfl⟩ := execStoreRegs_cases h
    · simp
    · simpa using s.byteAt_storeBytes_other _ _ a (.inl (inGlyphs.trans_le above))
  all_goals exact memSame nofun nofun a

theorem State.byteAt_endInstruction (s : State) (a : Nat) : s.endInstruction.byteAt a = s.byteAt a := by
  obtain e | e := s.endInstruction_cases <;> rw [e]
  rfl

/-- R67, through the whole step: neither the clock sample, a fault entry nor the end of an instruction stores a byte. -/
theorem step_keeps_glyphRegion {s t : State} (h : step s = .next t) {a : Nat} (inGlyphs : a < Memory.glyphEnd) :
    t.byteAt a = s.byteAt a := by
  obtain ⟨-, rfl⟩ | ⟨-, ⟨r, -, rfl⟩ | ⟨w, -, ⟨e, -, rfl⟩ | ⟨i, u, -, hu, rfl⟩⟩⟩ := step_cases h
  · rfl
  · simp
  · simp
  · rw [u.byteAt_endInstruction, exec_keeps_glyphRegion hu inGlyphs]
    simp

/-! ## GLYPHS under the operations of the host (log 23) -/

/-- R7: the steps of a tick leave the configuration, since each of them does. -/
theorem runSteps_keeps_cfg {n : Nat} {s t : State} (h : runSteps n s = .next t) : t.cfg = s.cfg := by
  induction n generalizing s with
  | zero => cases h; rfl
  | succ n ih =>
    unfold runSteps at h
    split at h
    · rw [ih h, (programsNeverWriteHostState s _ ‹_›).1]
    · cases h
    · cases h

theorem State.tick_keeps_cfg {s t : State} (h : s.tick = .next t) : t.cfg = s.cfg := by
  unfold State.tick at h
  split at h
  · exact runSteps_keeps_cfg h
  · cases h; rfl

/-- R254: a load keeps the configuration, whether the image fits or not. -/
theorem State.load_cfg (s : State) (image : List Byte) (origin : Word) : (s.load image origin).cfg = s.cfg := by
  unfold State.load
  split <;> rfl

theorem State.restart_cfg (s : State) : s.restart.cfg = s.cfg := by
  unfold State.restart
  split
  · exact s.load_cfg _ _
  · rfl

/-- R235: a key event leaves the configuration. -/
theorem State.setKey_cfg (s : State) (k : Nibble) (down : Bool) : (s.setKey k down).cfg = s.cfg := by
  unfold State.setKey
  split <;> rfl

/-- R238, R239: no port of the configuration is GLYPHS, and the other operations leave the whole record. -/
theorem act_keeps_glyphs {op : HostOp} {s t : State} (h : s.act op = .next t) : t.cfg.glyphs = s.cfg.glyphs := by
  cases op
  case tick => rw [State.tick_keeps_cfg h]
  all_goals obtain rfl := Host.Outcome.next.inj h
  case load image origin => rw [s.load_cfg]
  case restart => rw [s.restart_cfg]
  case setKey k down => rw [s.setKey_cfg]
  case setQuirk q b => exact (setQuirkIn_keeps s.cfg b q).1
  all_goals rfl

/-- Settles O16: a step stores at or above the end of the glyph region only, and no operation of the host writes GLYPHS. -/
theorem glyphRegionNeverChanges : Obligations.GlyphRegionNeverChanges := by
  unfold Obligations.GlyphRegionNeverChanges
  exact ⟨fun s t h a below => step_keeps_glyphRegion h (Nat.lt_succ_of_le below),
    fun s t op h => act_keeps_glyphs h⟩

end Sys2Proof.Machine
end

section
/-! SUPPORT. Accesses to memory through I (20_memory.md R66 to R75): where they fault, and what is fetched after a store. -/

namespace Sys2Proof.Machine

open Sys2Proof.Safety

variable {s : State} {i : Instr} {bytes : List Byte}

/-! ## Where a checked access faults -/

/-- R66, R71, R225: an instruction that stores beyond memory ends with the record and the state before it. -/
theorem store_beyondMemory {f : State → State} (nonempty : bytes ≠ [])
    (beyond : Memory.size < s.i.toNat + bytes.length) :
    s.orRaise ((s.storeAtI (encode i) bytes).map f) =
      .next (withAddressFault s .outOfRange i (max s.i.toNat Memory.size)) := by
  rw [s.storeAtI_eq _ _ nonempty, if_pos beyond]
  rfl

/-- R67, R71, R225: the same of a store that starts in the glyph region; a block of registers from there ends inside
memory, so it is not out of range. -/
theorem store_intoGlyphs {f : State → State} (nonempty : bytes ≠ []) (short : bytes.length ≤ 16)
    (inGlyphs : s.i.toNat < Memory.glyphEnd) :
    s.orRaise ((s.storeAtI (encode i) bytes).map f) = .next (withAddressFault s .glyphWrite i s.i.toNat) := by
  have inside : ¬ Memory.size < s.i.toNat + bytes.length := by
    simp only [Memory.size, Memory.glyphEnd] at *
    omega
  rw [s.storeAtI_eq _ _ nonempty, if_neg inside, if_pos inGlyphs]
  rfl

/-- R66, R71, R225: an instruction that loads from beyond memory ends with the record and the state before it. -/
theorem load_beyondMemory {f : List Byte → State} {n : Nat} (nonempty : n ≠ 0) (beyond : Memory.size < s.i.toNat + n) :
    s.orRaise ((s.loadAtI (encode i) n).map f) =
      .next (withAddressFault s .outOfRange i (max s.i.toNat Memory.size)) := by
  rw [s.loadAtI_eq, if_neg (by omega)]
  rfl

theorem decimalDigits_ne_nil (b : Byte) : decimalDigits b ≠ [] := List.cons_ne_nil _ _

theorem State.regBlock_ne_nil (s : State) (x : Nibble) : s.regBlock x ≠ [] :=
  List.ne_nil_of_length_pos (by simp)

/-- R191, R192: a draw that is not skipped is its checked load and what follows it. -/
theorem execDrw_of_performed {x y n : Nibble} (performed : s.drawLimited = false) :
    execDrw x y n s =
      s.orRaise ((s.loadAtI (encode (.drw x y n)) n.toNat).map fun rows => (s.drawSprite x y rows).advance) := by
  simp [execDrw, performed]

/-- Settles O41: each instruction is one checked access, whose fault each clause names. -/
theorem accessesFaultWhole : Obligations.AccessesFaultWhole := by
  unfold Obligations.AccessesFaultWhole
  intro s x y n
  have registers := x.isLt
  refine ⟨fun beyond => ?_, fun inGlyphs => ?_, fun beyond => ?_, fun inGlyphs => ?_, fun beyond => ?_,
    fun performed rows beyond => ?_⟩
  · exact store_beyondMemory (decimalDigits_ne_nil _) (Nat.succ_lt_succ beyond)
  · exact store_intoGlyphs (decimalDigits_ne_nil _) (by simp) (Nat.lt_succ_of_le inGlyphs)
  · exact store_beyondMemory (s.regBlock_ne_nil x) (by rw [State.regBlock_length]; exact Nat.succ_lt_succ beyond)
  · exact store_intoGlyphs (s.regBlock_ne_nil x) (by simpa using registers) (Nat.lt_succ_of_le inGlyphs)
  · exact load_beyondMemory (Nat.succ_ne_zero _) (Nat.succ_lt_succ beyond)
  · exact (execDrw_of_performed performed).trans (load_beyondMemory (Nat.one_le_iff_ne_zero.1 rows) beyond)

/-! ## Stored code -/

/-- R185: after a block store of registers, byte `k` of the block is register `k`. -/
theorem State.byteAt_storeBytes_regBlock {x : Nibble} (wf : Memory.wf s.cfg.glyphs s.mem)
    (fits : s.i.toNat + (x.toNat + 1) ≤ Memory.size) (k : Nibble) (hk : k.toNat ≤ x.toNat) :
    (s.storeBytes s.i.toNat (s.regBlock x)).byteAt (s.i.toNat + k.toNat) = s.readV k := by
  have inBlock : k.toNat < (s.regBlock x).length := by simpa using Nat.lt_succ_of_le hk
  rw [s.byteAt_storeBytes_same _ _ _ wf (by simpa using fits) inBlock, s.getElem_regBlock]

/-- Settles O42: a store that raised no fault put V[0] and V[1] at the old I and the byte after it, both inside memory,
and a fetch reads memory alone. -/
theorem storedCodeIsFetched : Obligations.StoredCodeIsFetched := by
  unfold Obligations.StoredCodeIsFetched
  intro s t x wf _ two h noFault
  obtain ⟨r, rfl⟩ | ⟨fits, -, rfl⟩ := execStoreRegs_cases h
  · cases noFault
  · have high := State.byteAt_storeBytes_regBlock wf fits 0 (Nat.zero_le _)
    have low := State.byteAt_storeBytes_regBlock wf fits 1 two
    have inside : s.i.toNat ≤ 0xFFE := by
      simp only [Memory.size] at fits
      omega
    rw [State.fetch_eq, if_pos (by simpa using inside)]
    simpa [wordOfBytes] using congrArg₂ (fun a b : Byte => a ++ b) high low

end Sys2Proof.Machine
end

section
/-! SUPPORT. The decoder and the encoder against each other and against the table of 30_encoding.md R94: the round trip
both ways, the words that are illegal (R96), and the row of each decoded word. -/

namespace Sys2Proof

variable {w : Word} {i : Instr}

/-! ## A word from its fixed fields (30_encoding.md R92) -/

theorem encodeXI_of_fields {op : Nibble} {nn : Byte} (hop : fieldOp w = op) (hnn : fieldNN w = nn) :
    encodeXI op (fieldX w) nn = w := by
  subst hop hnn
  exact encodeXI_fields w

theorem encodeXYN_of_fields {op n : Nibble} (hop : fieldOp w = op) (hn : fieldN w = n) :
    encodeXYN op (fieldX w) (fieldY w) n = w := by
  subst hop hn
  exact encodeXYN_fields w

theorem encodeA_eq_iff {op : Nibble} {nnn : Addr12} : encodeA op nnn = w ↔ fieldOp w = op ∧ fieldNNN w = nnn := by
  constructor
  · rintro rfl
    exact ⟨fieldOp_encodeA op nnn, fieldNNN_encodeA op nnn⟩
  · rintro ⟨rfl, rfl⟩
    exact encodeA_fields w

theorem encodeA_of_fieldOp {op : Nibble} (hop : fieldOp w = op) : encodeA op (fieldNNN w) = w :=
  encodeA_eq_iff.2 ⟨hop, rfl⟩

/-- R95: with OP = 0 the view NNN decides as the whole word does. -/
theorem decodeZero_eq (hop : fieldOp w = 0x0#4) :
    decodeZero w =
      if fieldNNN w = 0x0E0#12 then .cls else if fieldNNN w = 0x0EE#12 then .ret else .sys (fieldNNN w) := by
  have whole : ∀ nnn : Addr12, w = encodeA 0x0 nnn ↔ fieldNNN w = nnn := fun nnn =>
    eq_comm.trans (encodeA_eq_iff.trans (and_iff_right hop))
  exact if_congr (whole 0x0E0) rfl (if_congr (whole 0x0EE) rfl rfl)

/-! ## From an instruction to its word and back -/

/-- Settles O2, by the format of the instruction: the decoder reads each field as the encoder wrote it. -/
theorem decodeInvertsEncode : Obligations.DecodeInvertsEncode := by
  unfold Obligations.DecodeInvertsEncode
  intro i wf
  cases i
  case sys nnn =>
    obtain ⟨notCls, notRet⟩ : nnn ≠ 0x0E0#12 ∧ nnn ≠ 0x0EE#12 := by simpa [Instr.wellFormed] using wf
    simp [encode, decodeWord, decodeZero_eq, notCls, notRet]
  case cls | ret => rfl
  case jp | call | ldI | jpV0 => simp [encode, decodeWord]
  case seByte | sneByte | ldByte | addByte | rnd => simp [encode, decodeWord]
  case seReg | sneReg | drw => simp [encode, decodeWord]
  case ldReg | orReg | andReg | xorReg | addReg | sub | shr | subn | shl => simp [encode, decodeWord, decodeEight]
  case skp | sknp => simp [encode, decodeWord, decodeE]
  case ldVxDt | ldVxK | ldDtVx | ldStVx | addI | ldF | ldB | storeRegs | loadRegs =>
    simp [encode, decodeWord, decodeF]

/-! ## From a word to its instruction and back -/

/-- `i` is an instruction, and `w` is its word. -/
def StandsFor (w : Word) (i : Instr) : Prop := i.wellFormed = true ∧ encode i = w

theorem decodeZero_standsFor (hop : fieldOp w = 0x0#4) : StandsFor w (decodeZero w) := by
  rw [decodeZero_eq hop]
  split_ifs with cls ret
  · exact ⟨rfl, encodeA_eq_iff.2 ⟨hop, cls⟩⟩
  · exact ⟨rfl, encodeA_eq_iff.2 ⟨hop, ret⟩⟩
  · exact ⟨by simp [Instr.wellFormed, cls, ret], encodeA_of_fieldOp hop⟩

theorem decodeEight_standsFor (hop : fieldOp w = 0x8#4) (h : decodeEight w = .ok i) : StandsFor w i := by
  simp only [decodeEight] at h
  split_ifs at h with hn hn hn hn hn hn hn hn hn <;> cases h <;> exact ⟨rfl, encodeXYN_of_fields hop hn⟩

theorem decodeE_standsFor (hop : fieldOp w = 0xE#4) (h : decodeE w = .ok i) : StandsFor w i := by
  simp only [decodeE] at h
  split_ifs at h with hnn hnn <;> cases h <;> exact ⟨rfl, encodeXI_of_fields hop hnn⟩

theorem decodeF_standsFor (hop : fieldOp w = 0xF#4) (h : decodeF w = .ok i) : StandsFor w i := by
  simp only [decodeF] at h
  split_ifs at h with hnn hnn hnn hnn hnn hnn hnn hnn hnn <;> cases h <;> exact ⟨rfl, encodeXI_of_fields hop hnn⟩

/-- R95: what each value of OP asks for answers an instruction whose word is `w`. Case `h_k` is OP = k - 1, and the
cases of one format go together. -/
theorem decodeWord_standsFor (h : decodeWord w = .ok i) : StandsFor w i := by
  have lt : (fieldOp w).toNat < 16 := (fieldOp w).isLt
  unfold decodeWord at h
  split at h
  case h_1 op =>
    cases h
    exact decodeZero_standsFor (BitVec.eq_of_toNat_eq op)
  case h_2 op | h_3 op | h_11 op | h_12 op =>
    cases h
    exact ⟨rfl, encodeA_of_fieldOp (BitVec.eq_of_toNat_eq op)⟩
  case h_4 op | h_5 op | h_7 op | h_8 op | h_13 op =>
    cases h
    exact ⟨rfl, encodeXI_of_fields (BitVec.eq_of_toNat_eq op) rfl⟩
  case h_6 op | h_10 op =>
    split_ifs at h with hn
    cases h
    exact ⟨rfl, encodeXYN_of_fields (BitVec.eq_of_toNat_eq op) hn⟩
  case h_9 op => exact decodeEight_standsFor (BitVec.eq_of_toNat_eq op) h
  case h_14 op =>
    cases h
    exact ⟨rfl, encodeXYN_of_fields (BitVec.eq_of_toNat_eq op) rfl⟩
  case h_15 op => exact decodeE_standsFor (BitVec.eq_of_toNat_eq op) h
  case h_16 =>
    have op : (fieldOp w).toNat = 15 := by grind
    exact decodeF_standsFor (BitVec.eq_of_toNat_eq op) h

/-- Settles O3: `StandsFor` written out. -/
theorem encodeInvertsDecode : Obligations.EncodeInvertsDecode := by
  unfold Obligations.EncodeInvertsDecode
  intro w i h
  exact decodeWord_standsFor h

/-! ## The row of a word (30_encoding.md R94, R95) -/

open Sys2Proof.Laws.EncodesInRow in
/-- The word of every instruction lies in its row. -/
theorem encode_mask_opcodeRow (i : Instr) : encode i &&& (opcodeRow i).1 = (opcodeRow i).2 :=
  Instr.casesOn (motive := Statement) i sys cls ret jp call seByte sneByte seReg ldByte addByte ldReg orReg
    andReg xorReg addReg sub shr subn shl sneReg ldI jpV0 rnd drw skp sknp ldVxDt ldVxK ldDtVx ldStVx addI ldF
    ldB storeRegs loadRegs

/-- Settles O5, from the round trip: the word is the word of the instruction, which lies in its row. -/
theorem decoderFollowsTheRows : Obligations.DecoderFollowsTheRows := by
  unfold Obligations.DecoderFollowsTheRows
  intro w i h
  obtain ⟨-, hw⟩ := decodeWord_standsFor h
  refine ⟨hw ▸ encode_mask_opcodeRow i, ?_, ?_⟩
  · rintro rfl
    exact (Except.ok.inj h).symm
  · rintro rfl
    exact (Except.ok.inj h).symm

/-! ## The illegal words (30_encoding.md R96) -/

/-- A chain of tests is refused when each test fails. -/
theorem ite_ok_eq_error {c : Prop} [Decidable c] {x : Except Reject Instr} {e : Reject} :
    (if c then .ok i else x) = .error e ↔ ¬ c ∧ x = .error e := by
  split <;> simp [*]

theorem decodeEight_error : (∃ e, decodeEight w = .error e) ↔
    (fieldN w).toNat ∈ [0x8, 0x9, 0xA, 0xB, 0xC, 0xD, 0xF] := by
  have others : ∀ n : Nibble, n.toNat ∈ [0x8, 0x9, 0xA, 0xB, 0xC, 0xD, 0xF] ↔
      n.toNat ∉ [0x0, 0x1, 0x2, 0x3, 0x4, 0x5, 0x6, 0x7, 0xE] := by decide
  rw [others]
  simp [decodeEight, ite_ok_eq_error, BitVec.toNat_eq]

theorem decodeE_error : (∃ e, decodeE w = .error e) ↔ (fieldNN w).toNat ∉ [0x9E, 0xA1] := by
  simp [decodeE, ite_ok_eq_error, BitVec.toNat_eq]

theorem decodeF_error : (∃ e, decodeF w = .error e) ↔
    (fieldNN w).toNat ∉ [0x07, 0x0A, 0x15, 0x18, 0x1E, 0x29, 0x33, 0x55, 0x65] := by
  simp [decodeF, ite_ok_eq_error, BitVec.toNat_eq]

/-- Settles O4, by the value of OP: only the class of that value is left of the table, and what that value asks for says
it of the views N and NN. -/
theorem illegalWordsExactly : Obligations.IllegalWordsExactly := by
  unfold Obligations.IllegalWordsExactly
  intro w
  rw [← fieldOp_toNat, ← fieldN_toNat, ← fieldNN_toNat, ← decodeEight_error, ← decodeE_error, ← decodeF_error]
  have lt : (fieldOp w).toNat < 16 := (fieldOp w).isLt
  interval_cases op : (fieldOp w).toNat <;> simp [decodeWord, op, ite_ok_eq_error, BitVec.toNat_eq]

/-- Settles O1: the decoder evaluated. -/
theorem specWordsDecode : Obligations.SpecWordsDecode := by
  unfold Obligations.SpecWordsDecode
  decide

end Sys2Proof
end

section
/-! SUPPORT. The cycle (40_execution_cycle.md R120 to R126): what a step and a tick are, by whether the machine is enabled
and by what the fetch answers. -/

namespace Sys2Proof.Machine

variable {s t : State} {i : Instr} {w : Word}

/-! ## The step (R120, R122, R126) -/

theorem State.enabled_eq_false_iff : s.enabled = false ↔ s.loaded = false ∨ s.halted = true ∨ s.fault ≠ none := by
  simp only [State.enabled, Bool.and_eq_false_iff, Bool.not_eq_false', Option.isNone_eq_false_iff,
    Option.isSome_iff_ne_none, or_assoc]

/-- R120 (log 2). -/
theorem step_of_disabled (h : s.enabled = false) : step s = .next s := by
  simp [step, stepMachine, h]

theorem step_of_enabled (h : s.enabled = true) : step s = executeOne s.sampleClock := by
  simp [step, stepMachine, h]

/-- R123: a fetch that fails ends the step with its record. -/
theorem executeOne_of_fetch_error {r : FaultRecord} (h : s.fetch = .error r) : executeOne s = .next (s.raise r) := by
  simp [executeOne, h]

/-- R122, R124: an instruction that is fetched and decoded is performed, and its end follows. -/
theorem executeOne_of_decode (hf : s.fetch = .ok w) (hd : decodeWord w = .ok i) (he : exec i s = .next t) :
    executeOne s = .next t.endInstruction := by
  simp [executeOne, hf, hd, he, endStep]

/-- R225: the sound is not evaluated again after a fault. -/
theorem State.endInstruction_of_fault (h : s.fault ≠ none) : s.endInstruction = s := by
  simp [State.endInstruction, h]

/-- R126. -/
theorem State.endInstruction_of_noFault (h : s.fault = none) : s.endInstruction = s.reevaluateSound := by
  simp [State.endInstruction, h]

theorem State.endInstruction_fault : s.endInstruction.fault = s.fault := by
  obtain e | e := s.endInstruction_cases <;> simp [e]

/-- Settles O6: the fetch is the same on the state with the sample of the clock, and the end of the instruction depends on
its fault record. -/
theorem stepRunsTheDecodedInstruction : Obligations.StepRunsTheDecodedInstruction := by
  unfold Obligations.StepRunsTheDecodedInstruction
  intro s i enabled inside decoded t executed
  have fetched : s.sampleClock.fetch = .ok (wordOfBytes (s.byteAt s.pc.toNat) (s.byteAt (s.pc.toNat + 1))) := by
    rw [State.fetch_eq]
    exact if_pos inside
  rw [step_of_enabled enabled, executeOne_of_decode fetched decoded executed]
  refine ⟨fun fault => ?_, fun noFault => ?_⟩
  · rw [State.endInstruction_of_fault fault]
  · rw [State.endInstruction_of_noFault noFault]
    rfl

/-- Settles O7: each of the three makes the machine disabled. -/
theorem disabledMachineStaysStill : Obligations.DisabledMachineStaysStill := by
  unfold Obligations.DisabledMachineStaysStill
  intro s h
  have disabled : s.enabled = false := State.enabled_eq_false_iff.2 h
  exact ⟨step_of_disabled disabled, by simp [State.tick, disabled]⟩

/-- Settles O8: the fetch fails, and its record has the address of R64. -/
theorem fetchBeyondMemoryFaults : Obligations.FetchBeyondMemoryFaults := by
  unfold Obligations.FetchBeyondMemoryFaults
  intro s enabled beyond
  have failed : s.sampleClock.fetch = .error (addressFault .outOfRange none (fetchFaultAddress s.pc)) := by
    rw [State.fetch_eq]
    exact if_neg (Nat.not_le.2 beyond)
  have address : BitVec.ofNat 16 (fetchFaultAddress s.pc) = if s.pc.toNat = 0xFFF then 0x1000#16 else s.pc := by
    rw [fetchFaultAddress_eq]
    split
    · rfl
    · simp
  rw [step_of_enabled enabled, executeOne_of_fetch_error failed, ← address]
  rfl

/-- Settles O13: only an instruction ends an enabled step without a fault. Its end evaluates the sound, and it keeps the
sample of the clock taken before it. -/
theorem soundFollowsTheTimer : Obligations.SoundFollowsTheTimer := by
  unfold Obligations.SoundFollowsTheTimer
  intro s t enabled h noFault
  obtain ⟨disabled, -⟩ | ⟨-, ⟨r, -, rfl⟩ | ⟨w, -, ⟨e, -, rfl⟩ | ⟨i, u, -, executed, rfl⟩⟩⟩ := step_cases h
  · simp [enabled] at disabled
  · simp at noFault
  · simp at noFault
  · rw [State.endInstruction_fault] at noFault
    rw [State.endInstruction_of_noFault noFault]
    exact ⟨rfl, (exec_readOnlySame executed).now⟩

/-! ## The tick (R121) -/

theorem runSteps_of_disabled (h : s.enabled = false) (n : Nat) : runSteps n s = .next s := by
  induction n with
  | zero => rfl
  | succ n ih => simp [runSteps, step_of_disabled h, ih]

theorem runSteps_succ (h : step s = .next t) (n : Nat) : runSteps (n + 1) s = runSteps n t := by
  simp [runSteps, h]

/-- Steps in sequence: after the first `k`, the other `n`. -/
theorem runSteps_add {k : Nat} (h : runSteps k s = .next t) (n : Nat) : runSteps (k + n) s = runSteps n t := by
  induction k generalizing s with
  | zero => cases h; rw [Nat.zero_add]
  | succ k ih =>
    rw [Nat.succ_add]
    cases hs : step s with
    | next u =>
      rw [runSteps_succ hs] at h ⊢
      exact ih h
    | fault r => simp [runSteps, hs] at h
    | refused r => simp [runSteps, hs] at h

/-- R121, D24: the steps after a fault change nothing. -/
theorem runSteps_of_fault {k n : Nat} (hkn : k ≤ n) (h : runSteps k s = .next t) (fault : t.fault ≠ none) :
    runSteps n s = .next t := by
  have disabled : t.enabled = false := State.enabled_eq_false_iff.2 (.inr (.inr fault))
  rw [← Nat.add_sub_of_le hkn, runSteps_add h, runSteps_of_disabled disabled]

/-- Settles O60: a tick of an enabled machine is `ipt` steps, of which those after a fault change nothing. -/
theorem tickStopsAtAFault : Obligations.TickStopsAtAFault := by
  unfold Obligations.TickStopsAtAFault
  intro s enabled
  have tick : s.tick = runSteps s.cfg.ipt s := if_pos enabled
  rw [tick]
  refine ⟨fun zero => by rw [zero]; rfl, ?_⟩
  rintro k t few ran (rfl | fault)
  · exact ran
  · exact runSteps_of_fault few ran fault

end Sys2Proof.Machine
end

section
/-! SUPPORT. The program counter after an instruction (40_execution_cycle.md R125). -/

namespace Sys2Proof.Machine

open Sys2Proof.Safety

variable {s t : State}

/-! ## The rows of the table that are no plain advance -/

/-- R93: a 12-bit address as a value of pc. -/
theorem zextAddr_eq_ofNat (nnn : Addr12) : zextAddr nnn = BitVec.ofNat 16 nnn.toNat := by
  simp [zextAddr]

/-- R28: the slot a pop reads, for every pointer. -/
theorem toNat_poppedSp_eq_mod (sp : Byte) : (poppedSp sp).toNat = (sp.toNat + 15) % 16 := by
  simp [poppedSp, BitVec.toNat_sub]
  omega

/-- R142: where RET returns to. -/
theorem State.top_add_two (s : State) : s.top + 2 = pcAfter .ret s := by
  simp [State.top, pcAfter, toNat_poppedSp_eq_mod, BitVec.ofNat_add]

theorem addrX_eq (nnn : Addr12) : addrX nnn = BitVec.ofNat 4 (nnn.toNat / 256) := by
  apply BitVec.eq_of_toNat_eq
  simp [addrX, Nat.shiftRight_eq_div_pow]

theorem toNat_addrNN (nnn : Addr12) : (addrNN nnn).toNat = nnn.toNat % 256 := by
  simp [addrNN]

/-- R149: both forms of the target, unmasked (D4). -/
theorem State.offsetTarget_eq (s : State) (nnn : Addr12) : s.offsetTarget nnn = pcAfter (.jpV0 nnn) s := by
  unfold State.offsetTarget pcAfter
  split <;> apply BitVec.eq_of_toNat_eq
  · simp [addrX_eq, toNat_addrNN]
  · simp

/-- R209 (D19): the key a query asks for. -/
theorem lowNibble_readV (s : State) (x : Nibble) : lowNibble (s.readV x) = queriedKey s x := by
  apply BitVec.eq_of_toNat_eq
  simp [lowNibble, queriedKey]

/-- R125: a skip goes where the table says of its condition. -/
theorem State.skipIf_pc_eq_pcSkip {c : Bool} {P : Prop} [Decidable P] (h : c = true ↔ P) :
    (s.skipIf c).pc = pcSkip s P := by
  simp [pcSkip, h]

/-! ## Every instruction -/

/-- R125, R225: an instruction takes a fault, or leaves the fault record and puts pc where the table says. -/
theorem exec_pc {i : Instr} (h : exec i s = .next t) :
    (∃ r, t = s.raise r) ∨ (t.fault = s.fault ∧ t.pc = pcAfter i s) := by
  cases i
  case sys =>
    obtain raised | rfl := execSys_cases h
    · exact .inl raised
    · exact .inr ⟨rfl, rfl⟩
  case drw =>
    obtain ⟨-, rfl⟩ | raised | ⟨-, -, rfl⟩ := execDrw_cases h
    · exact .inr ⟨rfl, rfl⟩
    · exact .inl raised
    · exact .inr ⟨rfl, rfl⟩
  case ldB =>
    obtain raised | ⟨-, -, rfl⟩ := execLdB_cases h
    · exact .inl raised
    · exact .inr ⟨rfl, rfl⟩
  case storeRegs =>
    obtain raised | ⟨-, -, rfl⟩ := execStoreRegs_cases h
    · exact .inl raised
    · exact .inr (by simp [pcAfter])
  case loadRegs =>
    obtain raised | ⟨-, rfl⟩ := execLoadRegs_cases h
    · exact .inl raised
    · exact .inr (by simp [pcAfter])
  case ldVxK =>
    obtain ⟨waiting, rfl⟩ | ⟨k, released, rfl⟩ := execLdVxK_cases h
    · exact .inr (by simp [pcAfter, waiting])
    · exact .inr (by simp [pcAfter, released])
  all_goals
    obtain rfl := Host.Outcome.next.inj h
    refine .inr ⟨by simp, ?_⟩
  case ret => exact s.top_add_two
  case jpV0 nnn => exact s.offsetTarget_eq nnn
  case seByte | seReg | sneByte | sneReg => exact State.skipIf_pc_eq_pcSkip (by simp)
  case skp | sknp => simp [pcAfter, pcSkip, lowNibble_readV]
  all_goals simp [pcAfter, zextAddr_eq_ofNat]

/-- Settles O12: a fault entry leaves pc, and any other outcome is the row of the table. -/
theorem pcAfterEveryInstruction : Obligations.PcAfterEveryInstruction := by
  unfold Obligations.PcAfterEveryInstruction
  intro i s t before h
  obtain ⟨r, rfl⟩ | ⟨fault, pc⟩ := exec_pc h
  · simp
  · exact ⟨fun _ => pc, fun raised => absurd (fault.trans before) raised⟩

end Sys2Proof.Machine
end

section
/-! SUPPORT. Control flow (41_control_flow.md R140 to R149): what each instruction writes to pc and to the ring stack, and
that it leaves everything else. -/

namespace Sys2Proof.Machine

open Sys2Proof.Safety

variable {s : State}

/-! ## Frames -/

/-- Everything but pc, the stack pointer and the ring stays: the frame of CALL and RET. -/
def CallFrame (s t : State) : Prop :=
  RegsSameBut (fun _ => False) s t ∧ IndexSame s t ∧ MemSame s t ∧ TimersSame s t ∧ ScreenSame s t ∧
  KeypadSame s t ∧ RestSame s t

theorem callFrame_update (s : State) (pc : Word) (sp : Byte) (stack : Vector Word 16) :
    CallFrame s { s with pc, sp, stack } :=
  ⟨fun _ _ => rfl, rfl, fun _ => rfl, ⟨rfl, rfl⟩, ⟨rfl, rfl⟩, ⟨rfl, rfl⟩,
    ⟨rfl, rfl, rfl, rfl, rfl, rfl, rfl⟩, rfl, rfl, rfl⟩

/-- R143, R149: a jump keeps everything but pc. -/
theorem State.setPc_frame (s : State) (a : Word) : RegisterFrame (fun _ => False) s (s.setPc a) := by
  obtain ⟨regs, index, others⟩ := callFrame_update s a s.sp s.stack
  exact ⟨regs, index, ⟨rfl, fun _ => rfl⟩, others⟩

/-! ## The ring stack (10_state.md R25 to R28) -/

/-- R25: a pointer in its range names its own slot. -/
theorem ringSlot_of_le {sp : Byte} (inRange : sp.toNat ≤ 15) : ringSlot sp = sp.toNat :=
  Nat.mod_eq_of_lt (Nat.lt_succ_of_le inRange)

/-- R27: the slot a push writes. -/
theorem State.readSlot_push_same (s : State) (a : Word) : (s.push a).readSlot s.sp.toNat = a := by
  rw [State.readSlot_push]
  exact if_pos rfl

/-- R27: the slots a push leaves. -/
theorem State.readSlot_push_other {a : Word} {k : Nat} (inRange : s.sp.toNat ≤ 15) (hk : k < 16)
    (other : k ≠ s.sp.toNat) : (s.push a).readSlot k = s.readSlot k := by
  rw [State.readSlot_push, ringSlot_of_le inRange, Nat.mod_eq_of_lt hk, if_neg other]

/-- R27, R28: a pop undoes the move of the pointer by a push. -/
theorem poppedSp_pushedSp {sp : Byte} (inRange : sp.toNat ≤ 15) : poppedSp ((sp + 1) % 16) = sp := by
  apply BitVec.eq_of_toNat_eq
  rw [toNat_poppedSp_eq_mod, toNat_pushedSp]
  omega

/-- R27, R28: a pop returns what was pushed last. -/
theorem State.top_push {a : Word} (inRange : s.sp.toNat ≤ 15) : (s.push a).top = a := by
  rw [State.top, State.push_sp, poppedSp_pushedSp inRange, State.readSlot_push_same]

/-! ## CALL and RET -/

/-- Settles O31: the slots and the pointer are those of a push of pc. -/
theorem callPushesItsOwnAddress : Obligations.CallPushesItsOwnAddress := by
  unfold Obligations.CallPushesItsOwnAddress
  intro s nnn inRange
  exact ⟨(s.push s.pc).setPc (zextAddr nnn), rfl, toNat_zextAddr nnn, s.readSlot_push_same s.pc, toNat_pushedSp s.sp,
    fun _ => State.readSlot_push_other inRange, callFrame_update s ..⟩

/-- Settles O32: the pointer is that of a pop, and the slot it then names is the one the pop returned. -/
theorem retReturnsPastThePoppedAddress : Obligations.RetReturnsPastThePoppedAddress := by
  unfold Obligations.RetReturnsPastThePoppedAddress
  refine ⟨decodeInvertsEncode .ret rfl, fun s inRange => ?_⟩
  exact ⟨s.pop.setPc (s.top + 2), rfl, toNat_poppedSp s.sp inRange, BitVec.toNat_add s.top 2, fun _ => rfl,
    callFrame_update s ..⟩

/-- Settles O33: RET pops the address that CALL pushed. -/
theorem returnAfterCallContinues : Obligations.ReturnAfterCallContinues := by
  unfold Obligations.ReturnAfterCallContinues
  intro s nnn inRange
  have returned : (s.push s.pc).top + 2 = s.pc + 2 := by rw [State.top_push inRange]
  exact ⟨_, _, rfl, rfl, returned, poppedSp_pushedSp inRange⟩

/-! ## Jumps -/

/-- R149 (D4, D20): the target of JP V0, addr as a number, in both forms. The sum of 12 bits and 8 bits fits pc. -/
theorem State.toNat_offsetTarget (s : State) (nnn : Addr12) : (s.offsetTarget nnn).toNat =
    if s.cfg.jumpVx then nnn.toNat % 256 + (s.readV (BitVec.ofNat 4 (nnn.toNat / 256))).toNat
    else nnn.toNat + (s.readV 0).toNat := by
  rw [State.offsetTarget_eq, pcAfter]
  split <;> exact (BitVec.toNat_ofNat ..).trans (Nat.mod_eq_of_lt (by omega))

/-- Settles O35: each value of the option selects its form of the target. -/
theorem jumpWithOffset : Obligations.JumpWithOffset := by
  unfold Obligations.JumpWithOffset
  intro s nnn
  refine ⟨s.setPc (s.offsetTarget nnn), rfl, fun plain => ?_, fun indexed => ?_, s.setPc_frame _⟩
  · simp [State.toNat_offsetTarget, plain]
  · simp [State.toNat_offsetTarget, indexed]

/-- Settles O30: the target is NNN, and a jump writes pc alone. -/
theorem jpJumps : Obligations.JpJumps := by
  unfold Obligations.JpJumps
  intro s nnn
  exact ⟨s.setPc (zextAddr nnn), rfl, toNat_zextAddr nnn, s.setPc_frame _⟩

/-! ## Skips -/

/-- R125: an instruction that answers a skip on a test for `P` skips by `P` and keeps everything but pc. -/
theorem exec_skip_spec {i : Instr} {c : Bool} {P : Prop} [Decidable P] (h : exec i s = .next (s.skipIf c))
    (test : c = true ↔ P) :
    ∃ t, exec i s = .next t ∧ t.pc = (if P then s.pc + 4 else s.pc + 2) ∧ RegisterFrame (fun _ => False) s t :=
  ⟨s.skipIf c, h, State.skipIf_pc_eq_pcSkip test, s.setPc_frame _⟩

/-- Settles O34: each of the four is a skip on the test of its condition. -/
theorem comparesSkipOneInstruction : Obligations.ComparesSkipOneInstruction := by
  unfold Obligations.ComparesSkipOneInstruction
  intro s x y nn
  exact ⟨exec_skip_spec rfl beq_iff_eq, exec_skip_spec rfl bne_iff_ne, exec_skip_spec rfl beq_iff_eq,
    exec_skip_spec rfl bne_iff_ne⟩

/-! ## SYS -/

/-- R94, R224: the word of a SYS in a fault record is its 12-bit address. -/
theorem encode_sys_eq_ofNat (nnn : Addr12) : encode (.sys nnn) = BitVec.ofNat 16 nnn.toNat := by
  apply BitVec.eq_of_toNat_eq
  have op : (0x0 : Nibble).toNat = 0 := rfl
  rw [encode, encodeA_toNat, BitVec.toNat_ofNat, op]
  omega

theorem execSys_of_nop {nnn : Addr12} (policy : s.cfg.sysPolicy = .nop) : execSys nnn s = .next s.advance := by
  simp [execSys, policy]

theorem execSys_of_fault {nnn : Addr12} (policy : s.cfg.sysPolicy = .fault) :
    execSys nnn s = .next (s.raise (decodeFault (BitVec.ofNat 16 nnn.toNat) s.pc)) := by
  simp [execSys, policy, encode_sys_eq_ofNat]

/-- Settles O36: the policy selects the advance or the record of a DecodeFault. -/
theorem sysFollowsItsPolicy : Obligations.SysFollowsItsPolicy := by
  unfold Obligations.SysFollowsItsPolicy
  intro s nnn
  exact ⟨execSys_of_nop, execSys_of_fault⟩

end Sys2Proof.Machine
end

section
/-! SUPPORT. Register load, arithmetic, logic, shift and random (42_alu.md R160 to R172): what an instruction of each shape
writes and leaves, and its results and flags as numbers. -/

namespace Sys2Proof.Machine

open Sys2Proof.Safety

variable {s : State} {i : Instr} {x : Nibble} {r : Byte} {c : Bool}

/-! ## One register (R161, R162, R163) -/

/-- An update of the general registers and pc keeps everything else. -/
theorem registerFrame_update {P : Nibble → Prop} {v : Vector Byte 16} {pc : Word}
    (regs : RegsSameBut P s { s with v, pc }) : RegisterFrame P s { s with v, pc } :=
  ⟨regs, rfl, ⟨rfl, fun _ => rfl⟩, fun _ => rfl, ⟨rfl, rfl⟩, ⟨rfl, rfl⟩, ⟨rfl, rfl⟩,
    ⟨rfl, rfl, rfl, rfl, rfl, rfl, rfl⟩, rfl, rfl, rfl⟩

theorem State.writeV_frame (s : State) (x : Nibble) (r : Byte) : RegisterFrame (· = x) s (s.writeV x r).advance :=
  registerFrame_update fun y other => s.readV_writeV_other x y r other

/-- An instruction that answers the write of one register and the advance. -/
theorem exec_writeV_spec (h : exec i s = .next (s.writeV x r).advance) :
    ∃ t, exec i s = .next t ∧ t.readV x = r ∧ t.pc = s.pc + 2 ∧ RegisterFrame (· = x) s t :=
  ⟨_, h, s.readV_writeV_same x r, rfl, s.writeV_frame x r⟩

/-- Settles O23: the word is the one the encoder makes, and the effect is one write. -/
theorem ldByteLoads : Obligations.LdByteLoads := by
  unfold Obligations.LdByteLoads
  intro s x nn
  exact ⟨decodeInvertsEncode (.ldByte x nn) rfl, exec_writeV_spec rfl⟩

/-- Settles O24: each of the two is one write, and a sum of bytes is modulo 256. -/
theorem addByteAndLdRegWriteOneRegister : Obligations.AddByteAndLdRegWriteOneRegister := by
  unfold Obligations.AddByteAndLdRegWriteOneRegister
  refine fun s x y nn => ⟨?_, exec_writeV_spec rfl⟩
  obtain ⟨t, ht, value, pc, frame⟩ := exec_writeV_spec (i := .addByte x nn) (s := s) rfl
  exact ⟨t, ht, by rw [value, BitVec.toNat_add], pc, frame⟩

/-! ## A result, and VF by the option (R164, R165, R166) -/

/-- What a register reads after a logic operation; VF is cleared last (R160, D17). -/
theorem State.readV_logicFlag_writeV (s : State) (x y : Nibble) (r : Byte) : (s.writeV x r).logicFlag.readV y =
    if y = regF ∧ s.cfg.logicClearsVf = true then 0 else if y = x then r else s.readV y := by
  rw [State.readV_logicFlag, State.writeV_cfg, State.readV_writeV]

theorem State.logicFlag_eq_update (s : State) : s.logicFlag = { s with v := s.logicFlag.v } := by
  unfold State.logicFlag
  split <;> rfl

theorem State.logicFlag_frame (s : State) (x : Nibble) (r : Byte) :
    RegisterFrame (fun v => v = x ∨ (v = regF ∧ s.cfg.logicClearsVf = true)) s (s.writeV x r).logicFlag.advance := by
  have regs : RegsSameBut (fun v => v = x ∨ (v = regF ∧ s.cfg.logicClearsVf = true)) s
      (s.writeV x r).logicFlag.advance := by
    intro y other
    obtain ⟨notTarget, notCleared⟩ := not_or.1 other
    rw [State.advance_readV, State.readV_logicFlag_writeV, if_neg notCleared, if_neg notTarget]
  rw [State.logicFlag_eq_update] at regs ⊢
  exact registerFrame_update regs

/-- An instruction that answers a result and the clearing of VF under the option. -/
theorem exec_logicFlag_spec (h : exec i s = .next (s.writeV x r).logicFlag.advance) :
    ∃ t, exec i s = .next t ∧ LogicResult x r s t := by
  have value := s.readV_logicFlag_writeV x (r := r)
  refine ⟨_, h, fun clears => ⟨?_, fun notF => ?_⟩, fun keeps => ?_, by simp, s.logicFlag_frame x r⟩
  · exact (value regF).trans (if_pos ⟨rfl, clears⟩)
  · exact (value x).trans (by simp [notF])
  · exact (value x).trans (by simp [keeps])

/-- Settles O25: each of the three is a result and the flag of the option. -/
theorem logicOperations : Obligations.LogicOperations := by
  unfold Obligations.LogicOperations
  intro s x y
  exact ⟨exec_logicFlag_spec rfl, exec_logicFlag_spec rfl, exec_logicFlag_spec rfl⟩

/-! ## A result and a flag (R160, R167 to R171) -/

theorem State.writeResultFlag_frame (s : State) (x : Nibble) (r : Byte) (c : Bool) :
    RegisterFrame (fun v => v = x ∨ v = regF) s (s.writeResultFlag x r c).advance := by
  refine registerFrame_update fun y other => ?_
  obtain ⟨notTarget, notFlag⟩ := not_or.1 other
  exact (s.readV_writeResultFlag x y r c).trans ((if_neg notFlag).trans (if_neg notTarget))

/-- An instruction that answers a result, which is the number `n`, and a flag, which says whether `P`. -/
theorem exec_writeResultFlag_spec {n : Nat} {P : Prop} (h : exec i s = .next (s.writeResultFlag x r c).advance)
    (result : r.toNat = n) (flag : c = true ↔ P) : ∃ t, exec i s = .next t ∧ ResultAndFlag x n P s t := by
  have vf : (s.writeResultFlag x r c).readV regF = flagByte c := State.readV_writeResultFlag_regF
  refine ⟨_, h, fun notF => ?_, fun set => ?_, fun unset => ?_, rfl, s.writeResultFlag_frame x r c⟩
  · rw [State.advance_readV, State.readV_writeResultFlag, if_neg notF, if_pos rfl, result]
  · exact vf.trans (if_pos (flag.2 set))
  · exact vf.trans (if_neg (mt flag.1 unset))

theorem toNat_sub_eq (a b : Byte) : (a - b).toNat = (a.toNat + 256 - b.toNat) % 256 := by
  rw [BitVec.toNat_sub]
  have := b.isLt
  omega

/-- R167: the flag of an addition says that the sum exceeds 255. -/
theorem carries_iff (a b : Byte) : carries a b = true ↔ 255 < a.toNat + b.toNat := decide_eq_true_iff

/-- R168, R170: the flag of a subtraction says that no borrow was needed. -/
theorem noBorrow_iff (a b : Byte) : noBorrow a b = true ↔ b.toNat ≤ a.toNat := decide_eq_true_iff

/-- R169 (D21): the bit a right shift moves out says that the value is odd. -/
theorem shiftedOutRight_iff (a : Byte) : shiftedOutRight a = true ↔ a.toNat % 2 = 1 := by
  rw [shiftedOutRight, ← BitVec.testBit_toNat, Nat.testBit_zero, decide_eq_true_iff]

/-- R171 (D21): the bit a left shift moves out says that the value is in the upper half. -/
theorem shiftedOutLeft_iff (a : Byte) : shiftedOutLeft a = true ↔ 128 ≤ a.toNat := by
  have top : shiftedOutLeft a = a.msb := a.msb_eq_getLsbD_last.symm
  rw [top, BitVec.msb_eq_decide, decide_eq_true_iff]

theorem toNat_shiftRight_one (a : Byte) : (a >>> 1).toNat = a.toNat / 2 := by
  rw [BitVec.toNat_ushiftRight, Nat.shiftRight_one]

theorem toNat_shiftLeft_one (a : Byte) : (a <<< 1).toNat = a.toNat * 2 % 256 := by
  rw [BitVec.toNat_shiftLeft, Nat.shiftLeft_eq, pow_one]

/-- Settles O26: the result is the sum, and the flag its carry. -/
theorem addRegSumsAndCarries : Obligations.AddRegSumsAndCarries := by
  unfold Obligations.AddRegSumsAndCarries
  intro s x y
  exact exec_writeResultFlag_spec rfl (BitVec.toNat_add _ _) (carries_iff _ _)

/-- Settles O27: the two subtractions are the same operation with the operands exchanged. -/
theorem subtractionsSetNoBorrowFlag : Obligations.SubtractionsSetNoBorrowFlag := by
  unfold Obligations.SubtractionsSetNoBorrowFlag
  intro s x y
  exact ⟨exec_writeResultFlag_spec rfl (toNat_sub_eq _ _) (noBorrow_iff _ _),
    exec_writeResultFlag_spec rfl (toNat_sub_eq _ _) (noBorrow_iff _ _)⟩

/-- Settles O28: both shifts work on `State.shiftSource`, which the option selects. -/
theorem shiftsByOnePlace : Obligations.ShiftsByOnePlace := by
  unfold Obligations.ShiftsByOnePlace
  intro s x y v source
  have hv : v = (s.shiftSource x y).toNat := source
  subst hv
  exact ⟨exec_writeResultFlag_spec rfl (toNat_shiftRight_one _) (shiftedOutRight_iff _),
    exec_writeResultFlag_spec rfl (toNat_shiftLeft_one _) (shiftedOutLeft_iff _)⟩

/-! ## A random byte (R172, R128) -/

/-- Settles O29: drawing moves the source on by one, and what follows is one write. -/
theorem rndMasksAFreeByte : Obligations.RndMasksAFreeByte := by
  unfold Obligations.RndMasksAFreeByte
  intro s x nn
  have value := s.drawn.readV_writeV_same x (Config.randomByte s.draws &&& nn)
  obtain ⟨regs, index, stack, mem, timers, screen, keypad, control, now, samples, -⟩ :=
    s.drawn.writeV_frame x (Config.randomByte s.draws &&& nn)
  exact ⟨_, rfl, value, rfl, rfl, regs, index, stack, mem, timers, screen, keypad, control, now, samples⟩

end Sys2Proof.Machine
end

section
/-! SUPPORT. Index register and memory (43_index_memory.md R181 to R186): what an access inside memory stores or loads,
where I moves, and what stays. -/

namespace Sys2Proof.Machine

open Sys2Proof.Safety

variable {s : State} {i : Instr} {bytes : List Byte}

/-! ## I alone (R181, R182, R183) -/

/-- An instruction that answers a write of I and the advance. -/
theorem exec_setI_spec {a : Word} {n : Nat} (h : exec i s = .next (s.setI a).advance) (value : a.toNat = n) :
    ∃ t, exec i s = .next t ∧ t.i.toNat = n ∧ t = { s with i := t.i, pc := s.pc + 2 } :=
  ⟨_, h, value, rfl⟩

/-- R183 (D19): the high nibble of the register is ignored. -/
theorem toNat_glyphAddress_lowNibble (b : Byte) : (glyphAddress (lowNibble b)).toNat = 5 * (b.toNat % 16) := by
  simp [glyphAddress, lowNibble]
  omega

/-- Settles O37: each of the three is one write of I, whose value is that of the zero extension, the sum or the glyph. -/
theorem indexInstructionsWriteI : Obligations.IndexInstructionsWriteI := by
  unfold Obligations.IndexInstructionsWriteI
  intro s x nnn
  have sum : (s.i + zextByte (s.readV x)).toNat = (s.i.toNat + (s.readV x).toNat) % 65536 := by
    rw [BitVec.toNat_add, toNat_zextByte]
  exact ⟨exec_setI_spec rfl (toNat_zextAddr nnn), exec_setI_spec rfl sum,
    exec_setI_spec rfl (toNat_glyphAddress_lowNibble _)⟩

/-! ## Where a checked access succeeds (20_memory.md R66, R67) -/

/-- R66, R67: an instruction that stores inside memory and above the glyph region stores every byte and goes on. -/
theorem store_insideMemory {f : State → State} {w : Word} (nonempty : bytes ≠ [])
    (fits : s.i.toNat + bytes.length ≤ Memory.size) (above : Memory.glyphEnd ≤ s.i.toNat) :
    s.orRaise ((s.storeAtI w bytes).map f) = .next (f (s.storeBytes s.i.toNat bytes)) := by
  rw [s.storeAtI_eq _ _ nonempty, if_neg fits.not_gt, if_neg above.not_gt]
  rfl

/-- R66: an instruction that loads from inside memory gets every byte and goes on. -/
theorem load_insideMemory {f : List Byte → State} {w : Word} {n : Nat} (fits : s.i.toNat + n ≤ Memory.size) :
    s.orRaise ((s.loadAtI w n).map f) = .next (f (s.bytesAt s.i.toNat n)) := by
  rw [s.loadAtI_eq, if_pos (.inr fits)]
  rfl

/-! ## Where I moves, and what stays -/

/-- R185, R186 (D6): I after a block of registers, as a number. -/
theorem State.toNat_advanceI_i (s : State) (x : Nibble) : (s.advanceI x).i.toNat =
    if s.cfg.indexIncrement then (s.i.toNat + x.toNat + 1) % 65536 else s.i.toNat := by
  rw [State.advanceI_i]
  split
  · simp
  · rfl

theorem State.advanceI_eq_update (s : State) (x : Nibble) : s.advanceI x = { s with i := (s.advanceI x).i } := by
  unfold State.advanceI
  split <;> rfl

/-- R65: a store from I on, followed by updates of I and pc, keeps everything but the bytes stored. -/
theorem storeFrame_storeBytes (s : State) (bytes : List Byte) (index pc : Word) :
    StoreFrame bytes.length s { s.storeBytes s.i.toNat bytes with i := index, pc } :=
  ⟨fun _ _ => rfl, fun a => s.byteAt_storeBytes_other _ _ a, ⟨rfl, fun _ => rfl⟩, ⟨rfl, rfl⟩, ⟨rfl, rfl⟩, ⟨rfl, rfl⟩,
    ⟨rfl, rfl, rfl, rfl, rfl, rfl, rfl⟩, rfl, rfl, rfl⟩

/-! ## Decimal digits (R184) -/

/-- Settles O38: the three bytes stored are the digits, read back one at a time. -/
theorem decimalDigitsAreStored : Obligations.DecimalDigitsAreStored := by
  unfold Obligations.DecimalDigitsAreStored
  intro s x wf above inside
  have fits : s.i.toNat + (decimalDigits (s.readV x)).length ≤ Memory.size := Nat.succ_le_succ inside
  have digit := fun k => s.byteAt_storeBytes_same _ k _ wf fits
  refine ⟨_, store_insideMemory (decimalDigits_ne_nil _) fits above, ?_, ?_, ?_, rfl, rfl,
    storeFrame_storeBytes s _ s.i (s.pc + 2)⟩
  · simpa [decimalDigits] using congrArg BitVec.toNat (digit 0 (by simp))
  · simpa [decimalDigits] using congrArg BitVec.toNat (digit 1 (by simp))
  · simpa [decimalDigits] using congrArg BitVec.toNat (digit 2 (by simp))

/-! ## Blocks of registers (R185, R186) -/

/-- R185: a block store writes the bytes of the block, I under the option, and pc. -/
theorem State.storeRegs_frame (s : State) (x : Nibble) :
    StoreFrame (x.toNat + 1) s ((s.storeBytes s.i.toNat (s.regBlock x)).advanceI x).advance := by
  rw [State.advanceI_eq_update, ← s.regBlock_length x]
  exact storeFrame_storeBytes s (s.regBlock x) _ _

/-- Settles O39: the bytes stored are the registers of the block, and the move of I and pc after it stores nothing. -/
theorem registersAreStored : Obligations.RegistersAreStored := by
  unfold Obligations.RegistersAreStored
  intro s x wf above inside
  have fits : s.i.toNat + (x.toNat + 1) ≤ Memory.size := Nat.succ_le_succ inside
  refine ⟨_, store_insideMemory (s.regBlock_ne_nil x) (by simpa using fits) above, fun k hk => ?_,
    State.toNat_advanceI_i _ x, by simp, s.storeRegs_frame x⟩
  rw [State.advance_byteAt, State.advanceI_byteAt, State.byteAt_storeBytes_regBlock wf fits k hk]

/-- R186: register `y` after a block load: a byte of memory up to `x`, and as before above it. -/
theorem State.readV_writeRegBlock_bytesAt (s : State) (a : Nat) (x y : Nibble) :
    (s.writeRegBlock (s.bytesAt a (x.toNat + 1))).readV y =
      if y.toNat ≤ x.toNat then s.byteAt (a + y.toNat) else s.readV y := by
  rw [State.readV_writeRegBlock]
  split <;> rename_i hy
  · rw [List.getD_eq_getElem _ _ (by simpa using Nat.lt_succ_of_le hy), State.getElem_bytesAt]
  · exact List.getD_eq_default _ _ (by simpa using Nat.not_le.1 hy)

/-- Everything but the registers in `P`, I and pc stays: the frame of a block load. -/
def LoadFrame (P : Nibble → Prop) (s t : State) : Prop :=
  RegsSameBut P s t ∧ MemSame s t ∧ StackSame s t ∧ TimersSame s t ∧ ScreenSame s t ∧ KeypadSame s t ∧ RestSame s t

theorem loadFrame_update {P : Nibble → Prop} {v : Vector Byte 16} {index pc : Word}
    (regs : RegsSameBut P s { s with v, i := index, pc }) : LoadFrame P s { s with v, i := index, pc } := by
  obtain ⟨-, -, stack, mem, others⟩ := registerFrame_update (s := { s with i := index }) (pc := pc) regs
  exact ⟨regs, mem, stack, others⟩

/-- R186: a block load writes the registers up to `x`, I under the option, and pc. -/
theorem State.loadRegs_frame (s : State) (a : Nat) (x : Nibble) :
    LoadFrame (fun r => r.toNat ≤ x.toNat) s
      ((s.writeRegBlock (s.bytesAt a (x.toNat + 1))).advanceI x).advance := by
  rw [State.advanceI_eq_update]
  refine loadFrame_update fun y above => ?_
  exact (s.readV_writeRegBlock_bytesAt a x y).trans (if_neg above)

/-- Settles O40: the registers up to `x` read the bytes loaded, and the move of I and pc after it writes no register. -/
theorem registersAreLoaded : Obligations.RegistersAreLoaded := by
  unfold Obligations.RegistersAreLoaded
  intro s x inside
  have fits : s.i.toNat + (x.toNat + 1) ≤ Memory.size := Nat.succ_le_succ inside
  refine ⟨_, load_insideMemory fits, fun k hk => ?_, State.toNat_advanceI_i _ x, by simp, s.loadRegs_frame _ x⟩
  rw [State.advance_readV, State.advanceI_readV, State.readV_writeRegBlock_bytesAt, if_pos hk]

end Sys2Proof.Machine
end

section
/-! SUPPORT. Display (44_display.md R190 to R196): when a draw is skipped, what a performed one does to the picture and to
VF, and what CLS and DRW leave. -/

namespace Sys2Proof.Machine

open Sys2Proof.Safety

variable {s t : State} {x y n : Nibble}

/-! ## What stays, and the screen cleared (R190) -/

/-- Everything but the registers in `P`, pc, the picture and the time of the last draw stays: the frame of CLS and DRW. -/
def DisplayFrame (P : Nibble → Prop) (s t : State) : Prop :=
  RegsSameBut P s t ∧ IndexSame s t ∧ StackSame s t ∧ MemSame s t ∧ TimersSame s t ∧ KeypadSame s t ∧ RestSame s t

theorem displayFrame_update {P : Nibble → Prop} {v : Vector Byte 16} {pc : Word} {fb : Screen} {lastDraw : Option Time}
    (regs : RegsSameBut P s { s with v, pc, fb, lastDraw }) : DisplayFrame P s { s with v, pc, fb, lastDraw } := by
  obtain ⟨-, index, stack, mem, timers, -, others⟩ :=
    registerFrame_update (s := { s with fb, lastDraw }) (pc := pc) regs
  exact ⟨regs, index, stack, mem, timers, others⟩

theorem pixel_clear (r : Fin 32) (c : Fin 64) : pixel Screen.clear r c = false := by
  simp [pixel, Screen.clear]

/-- Settles O43: CLS is an update of the picture and pc, and the cleared screen has no lit pixel. -/
theorem clsClearsTheScreen : Obligations.ClsClearsTheScreen := by
  unfold Obligations.ClsClearsTheScreen
  intro s
  exact ⟨_, rfl, pixel_clear, rfl, rfl, displayFrame_update fun _ _ => rfl⟩

/-! ## When a draw is skipped (R192) -/

theorem State.drawLimited_iff :
    s.drawLimited = true ↔ ∃ t, s.lastDraw = some t ∧ s.now - t < s.cfg.minDrawInterval := by
  unfold State.drawLimited
  split <;> rename_i last <;> simp [last]

theorem execDrw_of_limited (limited : s.drawLimited = true) : execDrw x y n s = .next s.advance :=
  if_pos limited

/-- Settles O45: a draw is limited exactly when the last one is less than the interval ago. -/
theorem earlyDrawIsSkipped : Obligations.EarlyDrawIsSkipped := by
  unfold Obligations.EarlyDrawIsSkipped
  refine fun s x y n => ⟨fun t last early => ?_, fun late => ?_⟩
  · exact execDrw_of_limited (State.drawLimited_iff.2 ⟨t, last, early⟩)
  · rw [Bool.eq_false_iff, ne_eq, State.drawLimited_iff]
    rintro ⟨t, last, early⟩
    obtain noDraw | ⟨u, lastDraw, passed⟩ := late
    · exact Option.some_ne_none t (last.symm.trans noDraw)
    · obtain rfl : u = t := Option.some.inj (lastDraw.symm.trans last)
      exact passed.not_gt early

/-! ## A performed draw (R191, R193 to R196) -/

/-- R191: the draw of the `n` sprite rows at I, performed; pc has not advanced yet. -/
def State.drawFromI (s : State) (x y n : Nibble) : State := s.drawSprite x y (s.bytesAt s.i.toNat n.toNat)

/-- R191, D22: a draw that is not skipped is performed when its rows lie inside memory, and at any I when it has none. -/
theorem exec_drw_of_performed (performed : s.drawLimited = false)
    (fits : n.toNat = 0 ∨ s.i.toNat + n.toNat ≤ Memory.size) :
    exec (.drw x y n) s = .next (s.drawFromI x y n).advance := by
  refine (execDrw_of_performed performed).trans ?_
  rw [s.loadAtI_eq, if_pos fits]
  rfl

/-- R194, R195, R196: a performed draw toggles the covered pixels, and VF is the flag of a collision. -/
theorem State.drawFromI_pixels (s : State) (x y n : Nibble) :
    (∀ r c, pixel (s.drawFromI x y n).fb r c ≠ pixel s.fb r c ↔
      Covers s n.toNat (s.originX x) (s.originY y) r c) ∧
    ∃ hit, (s.drawFromI x y n).readV regF = flagByte hit ∧
      (hit = true ↔ ∃ r c, pixel s.fb r c = true ∧ Covers s n.toNat (s.originX x) (s.originY y) r c) := by
  have column : s.originX x < 64 := Nat.mod_lt _ (by decide)
  have rows : (s.bytesAt s.i.toNat n.toNat).length ≤ 32 := by
    have := n.isLt
    rw [State.bytesAt_length]
    omega
  obtain ⟨toggled, hit⟩ := drawRows_pixels s.cfg.spriteWrap (s.originX x) (s.bytesAt s.i.toNat n.toNat) (s.originY y)
    s.fb false column rows
  simp only [← covers_iff_lands, Bool.false_eq_true, false_or] at toggled hit
  exact ⟨toggled, _, State.readV_writeV_same _ _ _, hit⟩

/-- R191: a performed draw writes VF, the picture, the time of the draw and pc. -/
theorem State.drawFromI_frame (s : State) (x y n : Nibble) :
    DisplayFrame (· = regF) s (s.drawFromI x y n).advance :=
  displayFrame_update fun r notFlag => (State.readV_writeFlag _ r _).trans (if_neg notFlag)

/-- Settles O44: the draw is performed, `State.drawFromI_pixels` says what it shows, and the rest is its frame. -/
theorem drawTogglesCoveredPixels : Obligations.DrawTogglesCoveredPixels := by
  unfold Obligations.DrawTogglesCoveredPixels
  intro s x y n performed fits
  have access : n.toNat = 0 ∨ s.i.toNat + n.toNat ≤ Memory.size := fits.symm.imp_left (congrArg BitVec.toNat)
  obtain ⟨toggled, hit, flag, collision⟩ := s.drawFromI_pixels x y n
  refine ⟨_, exec_drw_of_performed performed access, toggled, fun lit => ?_, fun dark => ?_, rfl, rfl,
    s.drawFromI_frame x y n⟩
  · exact flag.trans (if_pos (collision.2 lit))
  · exact flag.trans (if_neg (mt collision.1 dark))

/-! ## Drawing twice (R196) -/

/-- R34: a picture is its pixels. -/
theorem screen_eq_of_pixel {fb gb : Screen} (h : ∀ r c, pixel fb r c = pixel gb r c) : fb = gb := by
  refine Vector.ext fun r hr => BitVec.eq_of_getLsbD_eq fun b hb => ?_
  have at_b := h ⟨r, hr⟩ ⟨63 - b, by omega⟩
  rwa [pixel, pixel, show 63 - (63 - b) = b by omega] at at_b

/-- Where a sprite lands depends on I, memory and the option alone. -/
theorem covers_congr (index : IndexSame s t) (mem : MemSame s t) (cfg : t.cfg = s.cfg) {rows x0 y0 : Nat} {r : Fin 32}
    {c : Fin 64} : Covers t rows x0 y0 r c ↔ Covers s rows x0 y0 r c := by
  unfold Covers
  rw [index, cfg]
  simp only [mem _]

/-- R226: a draw that was performed and left no fault had its rows inside memory, or none. -/
theorem rows_of_exec_drw (performed : s.drawLimited = false) (h : exec (.drw x y n) s = .next t)
    (noFault : t.fault = none) : s.i.toNat + n.toNat ≤ 0x1000 ∨ n = 0 := by
  obtain ⟨limited, -⟩ | ⟨r, rfl⟩ | ⟨-, fits, -⟩ := execDrw_cases h
  · simp [performed] at limited
  · cases noFault
  · exact fits.symm.imp_right BitVec.eq_of_toNat_eq

/-- R196: a pixel toggled by both draws or by neither is as before both. -/
theorem eq_of_toggled_twice : ∀ {before between after : Bool}, (after ≠ between ↔ between ≠ before) → after = before := by
  decide

/-- Settles O46: `DrawTogglesCoveredPixels` of both draws. The first keeps what decides which pixels the second covers. -/
theorem drawingTwiceRestores : Obligations.DrawingTwiceRestores := by
  unfold Obligations.DrawingTwiceRestores
  intro s t x y n later _ performed first noFault again column row
  have fits := rows_of_exec_drw performed first noFault
  obtain ⟨t', first', toggled, -, -, -, -, -, index, -, mem, -, -, control, -⟩ :=
    drawTogglesCoveredPixels s x y n performed fits
  obtain rfl : t = t' := Host.Outcome.next.inj (first.symm.trans first')
  obtain ⟨-, -, -, -, -, cfg, -⟩ := control
  obtain ⟨u, second, restored, lit, dark, -⟩ := drawTogglesCoveredPixels { t with now := later } x y n again
    (by rwa [show ({ t with now := later } : State).i = s.i from index])
  have covers : ∀ r c, Covers { t with now := later } n.toNat
      ((({ t with now := later } : State).readV x).toNat % 64)
      ((({ t with now := later } : State).readV y).toNat % 32) r c ↔
      Covers s n.toNat ((s.readV x).toNat % 64) ((s.readV y).toNat % 32) r c := by
    intro r c
    rw [← column, ← row]
    exact covers_congr index mem cfg
  have wasDark :
      (∃ r c, pixel t.fb r c = true ∧ Covers s n.toNat ((s.readV x).toNat % 64) ((s.readV y).toNat % 32) r c) ↔
      ∃ r c, pixel s.fb r c = false ∧ Covers s n.toNat ((s.readV x).toNat % 64) ((s.readV y).toNat % 32) r c := by
    refine exists_congr fun r => exists_congr fun c => and_congr_left fun covered => ?_
    rw [Bool.eq_not_of_ne ((toggled r c).2 covered), Bool.not_eq_true']
  simp only [covers, wasDark] at restored lit dark
  refine ⟨u, second, screen_eq_of_pixel fun r c => ?_, fun flag => ?_, lit⟩
  · exact eq_of_toggled_twice ((restored r c).trans (toggled r c).symm)
  · by_contra noneLit
    exact absurd (flag.symm.trans (dark noneLit)) (by decide)

end Sys2Proof.Machine
end

section
/-! SUPPORT. Timers and keypad (45_timers_keypad.md R201, R204 to R209): what LD Vx, DT reads, what a key query leaves, and
the two outcomes of the key wait. -/

namespace Sys2Proof.Machine

open Sys2Proof.Safety

variable {s : State} {i : Instr} {x k : Nibble} {c : Bool}

/-! ## The delay timer read (R201) -/

/-- Settles O47: the effect is the write of one register, and the byte written is a read of the timer, as an integer. -/
theorem delayTimerIsRead : Obligations.DelayTimerIsRead := by
  unfold Obligations.DelayTimerIsRead
  intro s x
  obtain ⟨t, ht, value, pc, frame⟩ := exec_writeV_spec (i := .ldVxDt x) (s := s) rfl
  have read := s.dt.toNat_read s.now
  rw [← value] at read
  exact ⟨t, ht, read, pc, frame⟩

/-! ## The key wait (R206, R208) -/

/-- R206: a pending release ends the wait. -/
theorem exec_ldVxK_of_released (pending : s.released = some k) :
    exec (.ldVxK x) s = .next (s.clearReleased.writeV x (k.setWidth 8)).advance := by
  simp [exec, execLdVxK, pending]

/-- R206: with no release pending the wait goes on. -/
theorem exec_ldVxK_of_waiting (waiting : s.released = none) : exec (.ldVxK x) s = .next s := by
  simp [exec, execLdVxK, waiting]

/-- R208: a key index fits a register. -/
theorem toNat_keyByte (k : Nibble) : (k.setWidth 8 : Byte).toNat = k.toNat :=
  BitVec.toNat_setWidth_of_le (by decide)

/-- Settles O52: a taken release is the write of one register after the slot is emptied. -/
theorem keyWaitTakesARelease : Obligations.KeyWaitTakesARelease := by
  unfold Obligations.KeyWaitTakesARelease
  refine fun s x => ⟨fun k pending => ?_, exec_ldVxK_of_waiting⟩
  have value : ((s.clearReleased.writeV x (k.setWidth 8)).advance.readV x).toNat = k.toNat :=
    (congrArg BitVec.toNat (s.clearReleased.readV_writeV_same x _)).trans (toNat_keyByte k)
  obtain ⟨regs, index, stack, mem, timers, screen, ⟨keys, slot⟩, rest⟩ :=
    s.clearReleased.writeV_frame x (k.setWidth 8)
  exact ⟨_, exec_ldVxK_of_released pending, value, slot, rfl, regs, index, stack, mem, timers, screen, keys, rest⟩

/-! ## The key skips (R204, R205, R207) -/

/-- R207: a query writes the last-released slot at most. -/
theorem State.queried_eq_update (s : State) :
    s.queried = { s with released := if s.cfg.keyqueryConsumesRelease then none else s.released } := by
  unfold State.queried
  split <;> rfl

/-- R204, R205: an instruction that answers a query and a skip on a test for `P`. -/
theorem exec_keySkip_spec {P : Prop} [Decidable P] (h : exec i s = .next (s.queried.skipIf c)) (test : c = true ↔ P) :
    ∃ t, exec i s = .next t ∧ t = { s with
      pc := if P then s.pc + 4 else s.pc + 2
      released := if s.cfg.keyqueryConsumesRelease then none else s.released } := by
  refine ⟨_, h, ?_⟩
  rw [State.queried_eq_update, State.skipIf]
  simp only [State.setPc, test]

/-- Settles O51: both are a skip on the key that `lowNibble_readV` names, tested down or up. -/
theorem keySkips : Obligations.KeySkips := by
  unfold Obligations.KeySkips
  intro s x
  rw [← lowNibble_readV]
  exact ⟨exec_keySkip_spec rfl Iff.rfl, exec_keySkip_spec rfl (by simp)⟩

end Sys2Proof.Machine
end

section
/-! SUPPORT. Exceptions and the host's ports (60_exceptions.md R222, R225, R226, R235 to R241): what a fault leaves, that
every step answers a next state, and what each port writes. -/

namespace Sys2Proof.Machine

variable {s t : State} {w : Word} {e : Reject} {k j : Nibble} {down : Bool}

/-! ## Faults of a step (R222, R225, R226) -/

/-- R222: a word that is no instruction ends the step with its record. -/
theorem executeOne_of_decode_error (hf : s.fetch = .ok w) (hd : decodeWord w = .error e) :
    executeOne s = .next (s.raise (decodeFault w s.pc)) := by
  simp [executeOne, hf, hd]

/-- Settles O9: the fetch is the same on the state with the sample of the clock, and its word does not decode. -/
theorem illegalWordRaisesDecodeFault : Obligations.IllegalWordRaisesDecodeFault := by
  unfold Obligations.IllegalWordRaisesDecodeFault
  intro s e enabled inside illegal
  have fetched : s.sampleClock.fetch = .ok (wordOfBytes (s.byteAt s.pc.toNat) (s.byteAt (s.pc.toNat + 1))) :=
    s.sampleClock.fetch_eq.trans (if_pos inside)
  rw [step_of_enabled enabled, executeOne_of_decode_error fetched illegal]
  rfl

/-- R122, R225 (log 10): `execute_one` answers a next state, whatever the fetch and the decoder answer. -/
theorem executeOne_next (s : State) : ∃ t, executeOne s = .next t := by
  cases fetched : s.fetch with
  | error r => exact ⟨_, executeOne_of_fetch_error fetched⟩
  | ok w =>
    cases decoded : decodeWord w with
    | error e => exact ⟨_, executeOne_of_decode_error fetched decoded⟩
    | ok i =>
      obtain ⟨t, executed⟩ := exec_next i s
      exact ⟨_, executeOne_of_decode fetched decoded executed⟩

/-- Settles O10: a disabled machine answers its own state, an enabled one what `execute_one` answers. -/
theorem everyStepAnswersANextState : Obligations.EveryStepAnswersANextState := by
  unfold Obligations.EveryStepAnswersANextState
  intro s
  cases enabled : s.enabled with
  | false => exact ⟨s, step_of_disabled enabled⟩
  | true =>
    rw [step_of_enabled enabled]
    exact executeOne_next s.sampleClock

/-- R225, R226: the end of an instruction that raised a fault changes nothing, and an instruction that raised none leaves the
record empty. -/
theorem endInstruction_of_raised {i : Instr} (before : s.fault = none) (h : exec i s = .next t)
    (raised : t.fault ≠ none) : ∃ r, t.endInstruction = s.raise r := by
  rw [State.endInstruction_of_fault raised]
  obtain faulted | ⟨same, -⟩ := exec_pc h
  · exact faulted
  · exact absurd (same.trans before) raised

/-- Settles O14: the fetch, the decoder and an instruction each raise a fault from the state with the clock sample, and a
disabled machine raises none. -/
theorem faultChangesNothingElse : Obligations.FaultChangesNothingElse := by
  unfold Obligations.FaultChangesNothingElse
  intro s t before h raised
  obtain ⟨-, rfl⟩ | ⟨-, ⟨r, -, rfl⟩ | ⟨w, -, ⟨e, -, rfl⟩ | ⟨i, u, -, executed, rfl⟩⟩⟩ := step_cases h
  · exact absurd before raised
  · rfl
  · rfl
  · rw [State.endInstruction_fault] at raised
    obtain ⟨r, entry⟩ := endInstruction_of_raised (s := s.sampleClock) before executed raised
    rw [entry]
    rfl

/-! ## Key input (R235) -/

/-- D24: a machine that is not loaded ignores its keys. -/
theorem State.setKey_of_unloaded (h : s.loaded = false) : s.setKey k down = s := by
  simp [State.setKey, h]

/-- R235: a key event on a loaded machine writes the keys and the last-released slot. -/
theorem State.setKey_of_loaded (h : s.loaded = true) :
    s.setKey k down = { s with
      released := if s.keyDown k && !down then some k else s.released
      key := s.key.set k.toNat down k.isLt } := by
  simp [State.setKey, h]

theorem State.keyDown_setKey (h : s.loaded = true) :
    (s.setKey k down).keyDown j = if j = k then down else s.keyDown j := by
  simp only [State.setKey_of_loaded h, State.keyDown, Vector.getElem_set, BitVec.toNat_inj, eq_comm (a := k)]

theorem State.released_setKey (h : s.loaded = true) :
    (s.setKey k down).released = if s.keyDown k = true ∧ down = false then some k else s.released := by
  simp [State.setKey_of_loaded h]

/-- Settles O57: what a key event leaves in the keys and in the last-released slot, by whether the machine is loaded. -/
theorem keyInputRecordsReleases : Obligations.KeyInputRecordsReleases := by
  unfold Obligations.KeyInputRecordsReleases
  refine fun s k down => ⟨s.setKey k down, rfl, State.setKey_of_unloaded, fun loaded => ?_⟩
  refine ⟨?_, fun j other => ?_, fun wasDown goesUp => ?_, fun noRelease => ?_, ?_⟩
  · rw [State.keyDown_setKey loaded, if_pos rfl]
  · rw [State.keyDown_setKey loaded, if_neg other]
  · rw [State.released_setKey loaded, if_pos ⟨wasDown, goesUp⟩]
  · rw [State.released_setKey loaded, if_neg noRelease]
  · rw [State.setKey_of_loaded loaded]

/-! ## Run control and settings (R236, R238, R239, R241) -/

/-- R46: a load clears `halted`, whether the image fits or not. -/
theorem State.load_halted (s : State) (image : List Byte) (origin : Word) : (s.load image origin).halted = false := by
  unfold State.load
  split <;> rfl

/-- Settles O58: each of the three switches is one write of `halted`. -/
theorem haltSwitches : Obligations.HaltSwitches := by
  unfold Obligations.HaltSwitches
  refine fun s => ⟨rfl, rfl, rfl, fun image origin t h => ?_⟩
  obtain rfl := Host.Outcome.next.inj h
  exact s.load_halted image origin

/-- R241, D23: disabling sound silences the tone at once. -/
theorem State.setSoundEnabled_false (s : State) :
    s.setSoundEnabled false = { s with soundEnabled := false, beep := false } := by
  simp [State.setSoundEnabled]

/-- R241, D23: enabling sound leaves the tone as it is. -/
theorem State.setSoundEnabled_true (s : State) : s.setSoundEnabled true = { s with soundEnabled := true } := by
  simp [State.setSoundEnabled]

/-- Settles O59: the sound toggle by its two values; every other setting is one write of its field. -/
theorem hostSettings : Obligations.HostSettings := by
  unfold Obligations.HostSettings
  intro s b
  refine ⟨congrArg _ s.setSoundEnabled_false, congrArg _ s.setSoundEnabled_true, fun _ => rfl, fun _ => rfl,
    fun _ => rfl, rfl, rfl, rfl, rfl, rfl, rfl⟩

end Sys2Proof.Machine
end

section
/-! SUPPORT. The load and the restart (70_reset_and_hazards.md R250 to R255): what each leaves, by whether the image fits. -/

namespace Sys2Proof.Machine

open Sys2Proof.Safety

variable {s t : State} {image : List Byte} {origin : Word}

/-! ## The unloaded state (R256), from which every load starts -/

/-- R46: but for the time of the load in the two stamps, the unloaded state has the values of reset. -/
theorem State.freshState_unloaded (s : State) : FreshState s.unloaded := by
  obtain ⟨regs, index, sp, slots, -, -, screen, keys, released, lastDraw, beep, halted⟩ := freshState_reset
  exact ⟨regs, index, sp, slots, rfl, rfl, screen, keys, released, lastDraw, beep, halted⟩

/-- R61, R253: the unloaded state holds the configuration's GLYPHS and zeros, since its memory lists nothing. -/
theorem State.byteAt_unloaded (s : State) (a : Nat) : s.unloaded.byteAt a = s.cfg.glyphs.toList.getD a 0 :=
  Memory.unlisted_eq_getD _ a

/-! ## The two outcomes of a load (R250, R251) -/

theorem State.load_of_fits (fits : origin.toNat + image.length ≤ Memory.size) :
    s.load image origin = { s.sampleClock.unloaded.storeBytes origin.toNat image with
      pc := origin
      loaded := true
      program := some ⟨image, origin⟩ } := by
  simp [State.load, overflows, fits]

theorem State.load_of_overflow (overflow : Memory.size < origin.toNat + image.length) :
    s.load image origin = s.sampleClock.unloaded.raise ⟨.config, .noKind, none, origin⟩ := by
  simp [State.load, overflows, overflow]

/-- R46, R250, R251: a load resets the machine, whether the image fits or not. -/
theorem State.freshState_load (s : State) (image : List Byte) (origin : Word) : FreshState (s.load image origin) := by
  unfold State.load
  split <;> exact s.sampleClock.freshState_unloaded

/-- R254: a load keeps the sound toggle, whether the image fits or not. -/
theorem State.load_soundEnabled (s : State) (image : List Byte) (origin : Word) :
    (s.load image origin).soundEnabled = s.soundEnabled := by
  unfold State.load
  split <;> rfl

/-- R250 (log 18): the time of a load is one sample of the clock. -/
theorem State.load_now (s : State) (image : List Byte) (origin : Word) :
    (s.load image origin).now = s.sampleClock.now := by
  unfold State.load
  split <;> rfl

/-- R250: the image stands from the origin on, over GLYPHS where it starts below their end. -/
theorem State.byteAt_load_inside (fits : origin.toNat + image.length ≤ Memory.size) {k : Nat}
    (inside : k < image.length) : (s.load image origin).byteAt (origin.toNat + k) = image[k] := by
  rw [State.load_of_fits fits]
  exact s.sampleClock.unloaded.byteAt_storeBytes_same _ k image (Memory.nil_wf _) fits inside

/-- R61, R253: of the memory before a load nothing is left; outside the image it is GLYPHS and zeros. -/
theorem State.byteAt_load_outside (fits : origin.toNat + image.length ≤ Memory.size) {a : Nat}
    (outside : a < origin.toNat ∨ origin.toNat + image.length ≤ a) :
    (s.load image origin).byteAt a = s.cfg.glyphs.toList.getD a 0 := by
  rw [State.load_of_fits fits]
  exact (s.sampleClock.unloaded.byteAt_storeBytes_other _ image a outside).trans (s.sampleClock.byteAt_unloaded a)

/-- Settles O54: the unloaded state with the image stored into its memory, enabled at the origin. -/
theorem loadResetsTheMachine : Obligations.LoadResetsTheMachine := by
  unfold Obligations.LoadResetsTheMachine
  intro s image origin fits
  have outcome := State.load_of_fits (s := s) fits
  have later : s.now ≤ (s.load image origin).now := s.load_now image origin ▸ s.sampleClock_now
  exact ⟨s.load image origin, rfl, s.freshState_load image origin, congrArg State.loaded outcome,
    congrArg State.fault outcome, congrArg State.pc outcome, s.load_cfg image origin, s.load_soundEnabled image origin,
    later, fun k => State.byteAt_load_inside fits, fun a => State.byteAt_load_outside fits⟩

/-- Settles O55: the unloaded state with the record of the fault, on which a tick does nothing (R120). -/
theorem loadThatDoesNotFitFaults : Obligations.LoadThatDoesNotFitFaults := by
  unfold Obligations.LoadThatDoesNotFitFaults
  intro s image origin overflow
  have outcome := State.load_of_overflow (s := s) overflow
  have unloaded : (s.load image origin).loaded = false := congrArg State.loaded outcome
  obtain ⟨-, idle⟩ := disabledMachineStaysStill (s.load image origin) (.inl unloaded)
  refine ⟨s.load image origin, rfl, s.freshState_load image origin, unloaded, congrArg State.fault outcome,
    fun a => ?_, s.load_cfg image origin, s.load_soundEnabled image origin, idle⟩
  rw [outcome, State.raise_byteAt]
  exact s.sampleClock.byteAt_unloaded a

/-! ## Restart (R255) -/

/-- What no step changes, no run of steps changes. -/
theorem runSteps_keeps {α : Type} {f : State → α} (step_keeps : ∀ s t, step s = .next t → f t = f s) {n : Nat}
    (h : runSteps n s = .next t) : f t = f s := by
  induction n generalizing s with
  | zero => cases h; rfl
  | succ n ih =>
    obtain ⟨u, first⟩ := everyStepAnswersANextState s
    rw [runSteps_succ first] at h
    exact (ih h).trans (step_keeps s u first)

/-- R43: a program cannot change the image that is remembered. -/
theorem step_keeps_program (h : step s = .next t) : t.program = s.program := by
  obtain ⟨-, -, -, -, -, program⟩ := programsNeverWriteHostState s t h
  exact program

theorem runSteps_keeps_program {n : Nat} (h : runSteps n s = .next t) : t.program = s.program :=
  runSteps_keeps (f := State.program) (fun _ _ => step_keeps_program) h

/-- R43, R250: a load that fits remembers its image and origin. -/
theorem State.load_program (fits : origin.toNat + image.length ≤ Memory.size) :
    (s.load image origin).program = some ⟨image, origin⟩ := by
  rw [State.load_of_fits fits]

/-- R255: a restart is the load of what is remembered. -/
theorem State.restart_of_program (remembered : s.program = some ⟨image, origin⟩) : s.restart = s.load image origin := by
  simp [State.restart, remembered]

/-- Settles O56: the load remembers the image, the steps after it keep what is remembered, and the restart loads it. -/
theorem restartLoadsTheImageAgain : Obligations.RestartLoadsTheImageAgain := by
  unfold Obligations.RestartLoadsTheImageAgain
  intro s t image origin fits loaded n u ran
  obtain rfl := Host.Outcome.next.inj loaded
  have remembered : u.program = some ⟨image, origin⟩ := (runSteps_keeps_program ran).trans (State.load_program fits)
  exact congrArg Host.Outcome.next (State.restart_of_program remembered)

end Sys2Proof.Machine
end
